-- ==== Sys2Proof/Word.lean ====
section
/-! DEFINITION. The word types of the HB208 model, its two ports and the header fields of a command. -/

namespace Sys2Proof

abbrev Byte := BitVec 8
abbrev Word16 := BitVec 16
/-- Part time and the 32-bit counters wrap modulo 2^32 (spec 00, Conventions). -/
abbrev Word32 := BitVec 32
/-- A six-byte address, byte 0 in the most significant place (spec 00, Conventions). -/
abbrev Mac := BitVec 48
/-- A frame from offset 0 through the last byte of its FCS (R112). -/
abbrev Frame := List Byte

/-- The two frame ports of the part. -/
inductive Port where
  | line
  | station
deriving DecidableEq, Repr

/-- The header fields of a command (R126) that its sender chooses, and the port it arrives on.
Version and kind are 1 in a command that the table's rows name; other values reach the part in the
frames of LINE_FRAME_RECEIVED and STATION_FRAME_RECEIVED. -/
structure CmdHeader where
  port : Port
  source : Mac
  seq : Word16
  tag : Word16
deriving DecidableEq, Repr

end Sys2Proof
end

