-- ==== Sys2Proof/Syntax.lean ====
section
/-! DEFINITION. The commands of the HB208: one constructor for each row of spec/opcode_table.json. -/

namespace Sys2Proof

/-- The rows of the table of operations and events. A management command carries its header and the
parameters of R130; an event carries what arrives with it from outside. -/
inductive Instr where
  /-- The reset's event: RESETN returns high or power-on settles, with these strap and link levels (R176). -/
  | hardwareReset (straps : BitVec 6) (linkL linkS : Bool)
  /-- RESETN falls low (R125). -/
  | resetnAsserted
  /-- LINK_L falls; `arriving` is what had arrived of a frame whose reception was in progress (R121, R112). -/
  | lineLinkLoss (arriving : Option (List Byte))
  | lineLinkRegain
  /-- LINK_S falls; `arriving` as at the line port (R122, R112). -/
  | stationLinkLoss (arriving : Option (List Byte))
  | stationLinkRegain
  /-- The reception of a frame completes on the line port (R112). -/
  | lineFrameReceived (frame : List Byte)
  /-- The reception of a frame completes on the station port (R112). -/
  | stationFrameReceived (frame : List Byte)
  | pulseTimerExpiry
  | attemptTimerExpiry
  | restExpiry
  | drainEnd
  | releaseDelayExpiry
  | beginDelivery
  | releaseEnd
  /-- The HELD frame of this hold serial reaches its class's lifetime (R63). -/
  | expiry (serial : Word16)
  | lineTransmitStart
  | stationTransmitStart
  | lineTransmitComplete
  | stationTransmitComplete
  | resetTakesEffect
  | identify (h : CmdHeader)
  /-- A BIND with its lease in seconds (R133). -/
  | bind (h : CmdHeader) (lease : Word16)
  | unbind (h : CmdHeader)
  | status (h : CmdHeader)
  /-- A RULE_STAGE: index, action, and the rule record's bytes under RECORD (R41, R144). -/
  | ruleStage (h : CmdHeader) (index action : Byte) (record : List Byte)
  | ruleDiscard (h : CmdHeader)
  | ruleCommit (h : CmdHeader)
  | ruleRead (h : CmdHeader) (table index : Byte)
  /-- A PROFILE_WRITE: index and the 12 bytes of the profile record (R154, R145). -/
  | profileWrite (h : CmdHeader) (index : Byte) (record : List Byte)
  | profileRead (h : CmdHeader) (index : Byte)
  /-- A TEMPLATE_WRITE: index, action, and the template's bytes under DEFINE (R102, R146). -/
  | templateWrite (h : CmdHeader) (index action : Byte) (template : List Byte)
  | templateRead (h : CmdHeader) (index : Byte)
  /-- A CLASS_WRITE: class, quota in blocks, lifetime in seconds, overflow policy (R67, R145). -/
  | classWrite (h : CmdHeader) (cls : Byte) (quota lifetime : Word16) (policy : Byte)
  | classRead (h : CmdHeader) (cls : Byte)
  | holdList (h : CmdHeader) (start : Byte) (serial : Word16)
  | holdPurge (h : CmdHeader) (selection cls : Byte) (serial : Word16)
  | wake (h : CmdHeader)
  | noticeAck (h : CmdHeader) (serial : Word16)
  | noticeMask (h : CmdHeader) (mask : Byte)
  | countersRead (h : CmdHeader) (group clear : Byte)
  | reset (h : CmdHeader) (strength : Byte)
  | doze (h : CmdHeader) (index : Byte)
  | resume (h : CmdHeader)
  | stationQuery (h : CmdHeader)
  | leaseExpiry
  | noticeOffer
  | retransmitTimerExpiry
deriving DecidableEq, Repr

end Sys2Proof
end

