-- ==== Sys2Proof/Decode.lean ====
section
/-! DEFINITION. The decoder over the rows of spec/opcode_table.json that give bits: there are none. -/

namespace Sys2Proof

/-- The command that a word of `nbits` bits spells. No row of the table gives bits (every row's fields are
empty), so no word spells a command (log entry 14). The wire form of the management commands is read by
the control responder (Machine/Responder.lean), out of the frames that arrive. -/
def decodeTableWord (_nbits _w : Nat) : Option Instr := none

end Sys2Proof
end

