-- ==== Sys2Proof/Config.lean ====
section
/-! DEFINITION. The fixed capacities and intervals of the part, and the model's free values. -/

namespace Sys2Proof.Config

/-- The unit address with straps 0: 0A-3C-71-E5-20-00 (R113). -/
def unitBase : Mac := 0x0A3C71E52000#48
/-- The group address 0B-3C-71-E5-20-FF (R113). -/
def groupAddress : Mac := 0x0B3C71E520FF#48

/-- The type field of a control frame, B59E hex (R114). -/
def controlType : Word16 := 0xB59E#16

/-- Blocks of the pool (R47). -/
def blocks : Nat := 384
/-- Bytes of one block (R47). -/
def blockBytes : Nat := 128
/-- Descriptors of the hold store (R48). -/
def descriptors : Nat := 128
/-- Entries of each rule table (R25, R40). -/
def ruleEntries : Nat := 32
/-- Profile records (R5). -/
def profiles : Nat := 4
/-- Templates (R100). -/
def templates : Nat := 16
/-- Capacity of the line control queue (R118). -/
def lineControlCap : Nat := 4
/-- Capacity of the station control queue (R120). -/
def stationControlCap : Nat := 2
/-- Capacity of the answer queue (R106). -/
def answerCap : Nat := 4
/-- Capacity of each transit queue (R115, R116). -/
def transitCap : Nat := 4
/-- Capacity of the notice queue (R167). -/
def noticeCap : Nat := 8
/-- Least and greatest frame length, FCS included (R112). -/
def minFrame : Nat := 64
def maxFrame : Nat := 1522
/-- The rest between two wake attempts, in ms (R96). -/
def restMs : Nat := 100
/-- The retransmit interval of a notice, in ms (R170). -/
def retransmitMs : Nat := 2000
/-- Transmissions of one notice before it is lost (R171). -/
def maxTransmissions : Nat := 4
/-- The greatest parameter length of a command (R126). -/
def maxParams : Nat := 1024

/-- FREE VALUE (log entry 2): the order in which timers that become due at one millisecond are taken.
The spec gives events that touch different state no order; nothing constrains this value. -/
opaque freeOrder : Nat → Nat

/-- FREE VALUE (log entry 23): from this number is taken how many bytes of a frame had left a port when its
transmission ended early, for each such end on that port. The spec gives frames on the media no durations. -/
opaque freeSentLength : Port → Nat → Nat

/-- FREE VALUE (log entry 23): from this word are taken the four bytes with which a port closes a transmission that a
reset cuts, for each early end on that port. R83 says of them only that they are no valid FCS. -/
opaque freeWrongFcs : Port → Nat → Word32

end Sys2Proof.Config
end

