-- ==== Sys2Proof/Machine/Types.lean ====
section
/-! DEFINITION. The records and named values that the state of the part is made of. -/

namespace Sys2Proof.Machine

/-- The station state (R1). -/
inductive StationState where
  | awake | dozing | asleep | waking | unresponsive | releasing
deriving DecidableEq, Repr

/-- The cause of a state change (R24). -/
inductive Cause where
  | doze | drainEnd | resume | releaseEnd | stationLinkDown
  | ruleWake | fullWake | linkWake | managerWake | attemptsSpent | warmReset
deriving DecidableEq, Repr

/-- The default disposition of a profile (R5). -/
inductive DefaultDisposition where
  | discard
  | hold (cls : Fin 4)
deriving DecidableEq, Repr

/-- The wake mode of a profile, with the pulse width in ms (R5). -/
inductive WakeMode where
  | pulse (width : Nat)
  | level
deriving DecidableEq, Repr

/-- A defined profile record (R5). Set i of the rule sets is bit i. -/
structure Profile where
  sets : BitVec 4
  defaultDisposition : DefaultDisposition
  wakeMode : WakeMode
  /-- in seconds, 1 to 120 -/
  timeout : Nat
  /-- 0 to 7 -/
  retries : Nat
  /-- in ms, 0 to 1000 -/
  releaseDelay : Nat
  wakeOnLink : Bool
deriving DecidableEq, Repr

/-- The active profile (R7). -/
inductive ActiveProfile where
  | none
  | record (index : Fin 4)
  | builtIn
deriving DecidableEq, Repr

/-- What the station context controller keeps (R1 to R24). -/
structure Context where
  station : StationState
  /-- the four records, `none` when undefined -/
  profiles : List (Option Profile)
  active : ActiveProfile
  /-- `none` when unknown (R10) -/
  address : Option Mac
  wakePending : Bool
deriving DecidableEq, Repr

/-- The guard of a rule (R28). -/
inductive Guard where
  | any | toStation | unicastOther | group | broadcast
deriving DecidableEq, Repr

/-- The destination class of a frame (R27). -/
inductive DestClass where
  | broadcast | group | toStation | unicastOther
deriving DecidableEq, Repr

/-- The test of a rule (R25, R26). -/
inductive RuleTest where
  | signature (expected : Word16)
  | exactly (expected : List Byte)
deriving DecidableEq, Repr

/-- The disposition of a rule (R25, R26). -/
inductive Disposition where
  | discard
  | hold (cls : Fin 4)
  | answer (template : Fin 16)
  | answerHold (template : Fin 16) (cls : Fin 4)
deriving DecidableEq, Repr

/-- A rule record (R25, R26). The mask has one flag for each byte of the window. -/
structure RuleRecord where
  sets : BitVec 4
  guard : Guard
  minLength : Nat
  windowOffset : Nat
  mask : List Bool
  test : RuleTest
  disposition : Disposition
  wake : Bool
deriving DecidableEq, Repr

/-- An entry of the active rule table: EMPTY (`none`) or VALID, with its match count (R25). -/
structure ActiveEntry where
  record : Option RuleRecord
  count : Word32
deriving DecidableEq, Repr

/-- An entry of the staged rule table (R40). -/
inductive StagedEntry where
  | noChange
  | stagedRecord (record : RuleRecord)
  | stagedEmpty
deriving DecidableEq, Repr

/-- What the classifier keeps (R25, R39, R40). -/
structure Classifier where
  active : List ActiveEntry
  staged : List StagedEntry
  unmatchedHeld : Word32
  unmatchedDiscarded : Word32
deriving DecidableEq, Repr

/-- The five hold classes (R54); `b` is the backlog class. -/
inductive HoldClass where
  | c0 | c1 | c2 | c3 | b
deriving DecidableEq, Repr

/-- Why a frame is held (R48). -/
inductive Origin where
  | rule (index : Nat)
  | byDefault
  | backlog
deriving DecidableEq, Repr

/-- The state of an in-use descriptor (R49). -/
inductive DescState where
  | held | delivering
deriving DecidableEq, Repr

/-- An in-use descriptor with the frame it describes, whose bytes are those in its blocks (R48). The frame
length and the block count are computed from the frame (log entry 18). -/
structure Descriptor where
  serial : Word16
  cls : HoldClass
  origin : Origin
  arrival : Word32
  state : DescState
  frame : Frame
deriving DecidableEq, Repr

/-- The overflow policy of a class (R54). -/
inductive Policy where
  | refuseNew | evictOldest | wakeOnFull
deriving DecidableEq, Repr

/-- The configuration of a class (R54); lifetime 0 is none. -/
structure ClassConfig where
  quota : Nat
  lifetime : Nat
  policy : Policy
deriving DecidableEq, Repr

/-- The account of a class (R55): two gauges and six counters. -/
structure Account where
  used : Nat
  held : Nat
  admitted : Word32
  delivered : Word32
  expired : Word32
  evicted : Word32
  refused : Word32
  purged : Word32
deriving DecidableEq, Repr

/-- The configurations of classes 0 to 3. Class B's is fixed (R54). -/
structure Configs where
  c0 : ClassConfig
  c1 : ClassConfig
  c2 : ClassConfig
  c3 : ClassConfig
deriving DecidableEq, Repr

/-- The accounts of the five classes. -/
structure Accounts where
  c0 : Account
  c1 : Account
  c2 : Account
  c3 : Account
  b : Account
deriving DecidableEq, Repr

/-- What the hold store keeps (R47 to R55). -/
structure HoldStore where
  freeBlocks : Nat
  /-- the hold list, oldest first (R52) -/
  list : List Descriptor
  nextSerial : Word16
  configs : Configs
  accounts : Accounts
deriving DecidableEq, Repr

/-- How a descriptor leaves the store and is counted (R50, R58, R63, R65, R72). -/
inductive Leave where
  | delivered | expired | evicted | purged
deriving DecidableEq, Repr

/-- A timer that is STOPPED or RUNNING with a remaining time in ms. Remaining 0 means that it is due: its
expiry is the next thing that can happen to it (log entry 3). -/
inductive Timer where
  | stopped
  | running (remaining : Nat)
deriving DecidableEq, Repr

/-- The release delay timer (R73). -/
inductive ReleaseTimer where
  | stopped
  | running (remaining : Nat)
  | expired
deriving DecidableEq, Repr

/-- The wake line (R86). -/
inductive WakeLine where
  | released | asserted
deriving DecidableEq, Repr

/-- The phase of the wake controller (R86). -/
inductive Phase where
  | idle | attempt | rest
deriving DecidableEq, Repr

/-- The attempt terms (R86): the profile's wake values as read at an attempt's start. -/
structure WakeTerms where
  mode : WakeMode
  timeout : Nat
  retries : Nat
deriving DecidableEq, Repr

/-- What the wake controller keeps (R86). -/
structure WakeController where
  line : WakeLine
  phase : Phase
  attempt : Nat
  terms : Option WakeTerms
  attemptTimer : Timer
  pulseTimer : Timer
deriving DecidableEq, Repr

/-- The source of a substitution (R101). -/
inductive Source where
  | triggerSource
  | stationAddress
  | unitAddress
  | triggerBytes (offset length : Nat)
deriving DecidableEq, Repr

/-- A substitution of a template (R101). -/
structure Substitution where
  target : Nat
  source : Source
deriving DecidableEq, Repr

/-- A defined template record (R101). -/
structure Template where
  body : List Byte
  substitutions : List Substitution
deriving DecidableEq, Repr

/-- What the answer generator keeps (R100, R106, R110). -/
structure AnswerGen where
  templates : List (Option Template)
  queue : List Frame
  sent : Word32
  queueFull : Word32
  shortTrigger : Word32
  undefinedTemplate : Word32
deriving DecidableEq, Repr

/-- A control frame that the part originates (R126), before padding and FCS. Kind 2 is a response, 3 a
notice, 4 a replayed response. -/
structure CtlFrame where
  dst : Mac
  src : Mac
  kind : Byte
  code : Byte
  status : Byte
  seq : Word16
  tag : Word16
  body : List Byte
deriving DecidableEq, Repr

/-- The six counters that each port keeps (R124). -/
structure PortCounters where
  received : Word32
  intakeErrors : Word32
  controlConsumed : Word32
  transmitted : Word32
  transitDrops : Word32
  linkDownDiscards : Word32
deriving DecidableEq, Repr

/-- How a transmission ended: whole, closed with a wrong FCS at a reset, or stopped at link loss (R83). -/
inductive TxEnd where
  | completed | cutBadFcs | stoppedAtLoss
deriving DecidableEq, Repr

/-- An ended transmission: how it ended, the frame that was being sent, and the bytes that the receiver has of it
(R83; log entry 10). -/
structure Sent where
  ending : TxEnd
  frame : Frame
  bytes : List Byte
deriving DecidableEq, Repr

/-- The MODEL's own record of a port's transmissions (log entry 10): the last that ended, and how many ended early,
which counts the uses of the free values of a cut (log entry 23). -/
structure SentLog where
  last : Option Sent
  cuts : Nat
deriving DecidableEq, Repr

/-- The queue that the line transmitter is sending from (R117). -/
inductive LineSource where
  | control | answer | transit
deriving DecidableEq, Repr

/-- The source that the station transmitter is sending from (R119). -/
inductive StationSource where
  | control | release | transit
deriving DecidableEq, Repr

/-- What the line port keeps (R111 to R121, R124). -/
structure LinePort where
  linkUp : Bool
  /-- what has arrived of the frame being received (R112; log entry 11) -/
  rx : Option Frame
  /-- the source in transmission, `none` when the transmitter is idle -/
  tx : Option LineSource
  control : List CtlFrame
  counters : PortCounters
  lastSent : SentLog
deriving DecidableEq, Repr

/-- What the station port keeps (R111 to R122, R124, R83). -/
structure StationPort where
  linkUp : Bool
  rx : Option Frame
  tx : Option StationSource
  control : List CtlFrame
  counters : PortCounters
  releaseCut : Word32
  lastSent : SentLog
deriving DecidableEq, Repr

/-- The two transit queues (R115, R116). -/
structure Transit where
  toStation : List Frame
  toLine : List Frame
deriving DecidableEq, Repr

/-- The strength of a RESET command (R141). -/
inductive Strength where
  | warm | cold
deriving DecidableEq, Repr

/-- A present binding record (R132). -/
structure Binding where
  manager : Mac
  /-- in seconds -/
  lease : Nat
  /-- in ms -/
  remaining : Nat
  lastSeq : Word16
  cached : CtlFrame
deriving DecidableEq, Repr

/-- What the control responder keeps (R127, R132, R141). -/
structure Responder where
  binding : Option Binding
  resetPending : Option Strength
  lineMalformed : Word32
  lineOverrun : Word32
  stationMalformed : Word32
  stationOverrun : Word32
deriving DecidableEq, Repr

/-- The code and body of a notice (R167). -/
inductive NoticeBody where
  | stateChange (left entered : StationState) (cause : Cause)
  | wakeFailed (attempts held : Nat)
  | holdPressure (cls : HoldClass) (refusals evictions : Word32)
  | lineLink (up : Bool)
deriving DecidableEq, Repr

/-- A notice record (R167). -/
structure Notice where
  serial : Word16
  body : NoticeBody
  time : Word32
  station : StationState
  transmissions : Nat
deriving DecidableEq, Repr

/-- What the notice unit keeps (R167). Bit k of the mask enables notice code 60 hex + k (R146). -/
structure NoticeUnit where
  queue : List Notice
  serial : Word16
  mask : BitVec 4
  lost : Word16
  timer : Timer
deriving DecidableEq, Repr

/-- The behavioural pins that are levels (R125). The WAKE output is computed (`State.wakePin`). -/
structure Pins where
  straps : BitVec 6
  linkL : Bool
  linkS : Bool
  resetn : Bool
deriving DecidableEq, Repr

end Sys2Proof.Machine
end

