-- ==== Sys2Proof/Machine/State.lean ====
section
/-! DEFINITION. The state of the part, its state after reset, and the reasons a step can stop. -/

namespace Sys2Proof.Machine

/-- The whole part, one field for each block of the block table (spec 00), and the queue of commands. -/
@[ext]
structure State where
  /-- the commands that wait, first in, first out; the MODEL's own (log entry 1) -/
  pending : List Instr
  pins : Pins
  /-- the straps as sampled at the last hardware reset (R113) -/
  unitStraps : BitVec 6
  /-- part time in ms (spec 00, Conventions) -/
  time : Word32
  ctx : Context
  rules : Classifier
  hold : HoldStore
  releaseTimer : ReleaseTimer
  wake : WakeController
  answers : AnswerGen
  line : LinePort
  station : StationPort
  transit : Transit
  responder : Responder
  notices : NoticeUnit
  /-- the MODEL's own: counts the uses of the free order of expiries (log entry 2) -/
  freeCount : Nat
deriving DecidableEq, Repr

/-- The part has no fault: the manual gives every event an effect, so no constructor stands here and no
step answers a fault (log entry 22; safe: nothing is proved of a fault). -/
inductive Fault
deriving DecidableEq, Repr

/-- The reasons a command is refused by the MODEL. -/
inductive Refusal where
  /-- Raised by an arm of `exec` whose command has no meaning yet; safe, since the model stops. No arm
  uses it: every command has its meaning. -/
  | notModelled (mnemonic : String)
deriving DecidableEq, Repr

/-- The configuration of classes 0 to 3 after a hardware or COLD reset (R54). -/
def ClassConfig.initial : ClassConfig := { quota := 96, lifetime := 600, policy := .refuseNew }

/-- An account after a hardware or COLD reset (R55). -/
def Account.zero : Account :=
  { used := 0, held := 0, admitted := 0, delivered := 0, expired := 0, evicted := 0, refused := 0, purged := 0 }

/-- The five accounts after a hardware or COLD reset (R55). -/
def Accounts.zero : Accounts :=
  { c0 := Account.zero, c1 := Account.zero, c2 := Account.zero, c3 := Account.zero, b := Account.zero }

/-- The hold store after a hardware or COLD reset (R71). -/
def HoldStore.initial : HoldStore :=
  { freeBlocks := Config.blocks, list := [], nextSerial := 0,
    configs := { c0 := .initial, c1 := .initial, c2 := .initial, c3 := .initial }, accounts := Accounts.zero }

/-- An EMPTY entry of the active table (R25). -/
def ActiveEntry.empty : ActiveEntry := { record := none, count := 0 }

/-- The classifier after a hardware or COLD reset (R45). -/
def Classifier.initial : Classifier :=
  { active := List.replicate Config.ruleEntries ActiveEntry.empty
    staged := List.replicate Config.ruleEntries .noChange
    unmatchedHeld := 0, unmatchedDiscarded := 0 }

/-- The station context after a hardware or COLD reset (R4). -/
def Context.initial : Context :=
  { station := .awake, profiles := List.replicate Config.profiles none, active := .none,
    address := none, wakePending := false }

/-- The wake controller after any reset (R86). -/
def WakeController.initial : WakeController :=
  { line := .released, phase := .idle, attempt := 0, terms := none, attemptTimer := .stopped, pulseTimer := .stopped }

/-- The answer generator after a hardware or COLD reset (R100, R110). -/
def AnswerGen.initial : AnswerGen :=
  { templates := List.replicate Config.templates none, queue := [], sent := 0, queueFull := 0,
    shortTrigger := 0, undefinedTemplate := 0 }

/-- The counters of a port after a hardware or COLD reset (R124). -/
def PortCounters.zero : PortCounters :=
  { received := 0, intakeErrors := 0, controlConsumed := 0, transmitted := 0, transitDrops := 0,
    linkDownDiscards := 0 }

/-- The MODEL's own record of a port's transmissions before the first (log entry 17). -/
def SentLog.initial : SentLog := { last := none, cuts := 0 }

/-- The line port after a hardware reset that finds LINK_L at `up` (R111, R123, R124). -/
def LinePort.initial (up : Bool) : LinePort :=
  { linkUp := up, rx := none, tx := none, control := [], counters := PortCounters.zero, lastSent := .initial }

/-- The station port after a hardware reset that finds LINK_S at `up` (R111, R123, R124). -/
def StationPort.initial (up : Bool) : StationPort :=
  { linkUp := up, rx := none, tx := none, control := [], counters := PortCounters.zero, releaseCut := 0,
    lastSent := .initial }

/-- The transit queues after any reset (R123). -/
def Transit.empty : Transit := { toStation := [], toLine := [] }

/-- The control responder after a hardware or COLD reset (R141). -/
def Responder.initial : Responder :=
  { binding := none, resetPending := none, lineMalformed := 0, lineOverrun := 0, stationMalformed := 0,
    stationOverrun := 0 }

/-- The notice unit after a hardware or COLD reset: mask 06 hex (R167). -/
def NoticeUnit.initial : NoticeUnit :=
  { queue := [], serial := 0, mask := 0x6#4, lost := 0, timer := .stopped }

/-- The machine right after a hardware reset (R176, R177) that finds the straps low and both links up
(DESIGN CHOICE, log entry 5), with nothing waiting. -/
def State.reset : State :=
  { pending := []
    pins := { straps := 0, linkL := true, linkS := true, resetn := true }
    unitStraps := 0
    time := 0
    ctx := Context.initial
    rules := Classifier.initial
    hold := HoldStore.initial
    releaseTimer := .stopped
    wake := WakeController.initial
    answers := AnswerGen.initial
    line := LinePort.initial true
    station := StationPort.initial true
    transit := Transit.empty
    responder := Responder.initial
    notices := NoticeUnit.initial
    freeCount := 0 }

end Sys2Proof.Machine
end

