-- ==== Sys2Proof/Machine/Operands.lean ====
section
/-! DEFINITION. What the part reads out of bytes and puts into them: byte order, frame fields, the frame
check sequence, the signature, and the parameter and record layouts (R126, R143 to R147). -/

namespace Sys2Proof.Machine

/-! ## Bytes and fields -/

/-- Byte `i` of a field whose bytes count from its least significant end. -/
def fieldByte {w : Nat} (x : BitVec w) (i : Nat) : Byte := x.extractLsb' (8 * i) 8

/-- Two bytes, most significant first (spec 00, Conventions). -/
def be16 (x : Word16) : List Byte := [fieldByte x 1, fieldByte x 0]

/-- Four bytes, least significant first, as an FCS stands in a frame (R112). -/
def le32 (x : Word32) : List Byte := [fieldByte x 0, fieldByte x 1, fieldByte x 2, fieldByte x 3]

/-- Four bytes, most significant first. -/
def be32 (x : Word32) : List Byte := [fieldByte x 3, fieldByte x 2, fieldByte x 1, fieldByte x 0]

/-- The six bytes of an address, offset 0 first. -/
def macBytes (x : Mac) : List Byte :=
  [fieldByte x 5, fieldByte x 4, fieldByte x 3, fieldByte x 2, fieldByte x 1, fieldByte x 0]

/-- The number that bytes spell, most significant first. -/
def beNat (bytes : List Byte) : Nat := bytes.foldl (fun n b => 256 * n + b.toNat) 0

/-- A small number as one byte, modulo 256. -/
def byteOf (n : Nat) : Byte := BitVec.ofNat 8 n

/-- A number as two bytes, most significant first. -/
def nat16 (n : Nat) : List Byte := be16 (BitVec.ofNat 16 n)

/-- The byte at an offset, 0 beyond the end. -/
def byteAt (bytes : List Byte) (offset : Nat) : Byte := (bytes.drop offset).headD 0

/-- The number in `size` bytes from an offset. -/
def natAt (bytes : List Byte) (offset size : Nat) : Nat := beNat ((bytes.drop offset).take size)

/-- The two-byte field at an offset. -/
def word16At (bytes : List Byte) (offset : Nat) : Word16 := BitVec.ofNat 16 (natAt bytes offset 2)

/-- The address in the six bytes from an offset. -/
def macAt (bytes : List Byte) (offset : Nat) : Mac := BitVec.ofNat 48 (natAt bytes offset 6)

/-- The group bit of an address: the bit of value 01 hex in byte 0 (R27, R127). -/
def groupBit (a : Mac) : Bool := a.getLsbD 40

/-- `bytes` with 00 bytes after them up to `n` bytes (R118, R126). -/
def padTo (n : Nat) (bytes : List Byte) : List Byte := bytes ++ List.replicate (n - bytes.length) 0

/-! ## The frame check sequence (R112) -/

/-- One shift of the FCS register. -/
def fcsShift (r : Word32) : Word32 := if r.getLsbD 0 then (r >>> 1) ^^^ 0xEDB88320#32 else r >>> 1

/-- `n` shifts of the FCS register. -/
def fcsShifts (n : Nat) (r : Word32) : Word32 := fcsShift^[n] r

/-- One byte taken into the FCS register. -/
def fcsByte (r : Word32) (b : Byte) : Word32 := fcsShifts 8 (r ^^^ b.setWidth 32)

/-- The frame check sequence of a run of bytes (R112). -/
def fcs (bytes : List Byte) : Word32 := ~~~ (bytes.foldl fcsByte 0xFFFFFFFF#32)

/-- The four bytes of the FCS, least significant first (R112). -/
def fcsBytes (bytes : List Byte) : List Byte := le32 (fcs bytes)

/-- A run of bytes closed with its FCS (R104, R126). -/
def closed (bytes : List Byte) : Frame := bytes ++ fcsBytes bytes

/-- The FCS of a frame checks: its last four bytes are those computed over every byte before them (R112). -/
def fcsChecks (f : Frame) : Bool := f.drop (f.length - 4) == fcsBytes (f.take (f.length - 4))

/-- The intake checks of a port: length and FCS (R112). -/
def intakeOk (f : Frame) : Bool :=
  decide (Config.minFrame ≤ f.length) && decide (f.length ≤ Config.maxFrame) && fcsChecks f

/-! ## The signature (R30) -/

/-- One shift of the signature register. -/
def signatureShift (r : Word16) : Word16 := if r.getLsbD 15 then (r <<< 1) ^^^ 0x1021#16 else r <<< 1

/-- `n` shifts of the signature register. -/
def signatureShifts (n : Nat) (r : Word16) : Word16 := signatureShift^[n] r

/-- One byte taken into the signature register. -/
def signatureByte (r : Word16) (b : Byte) : Word16 := signatureShifts 8 (r ^^^ (b.setWidth 16 <<< 8))

/-- The signature of a sequence of bytes (R30). -/
def signatureOf (bytes : List Byte) : Word16 := bytes.foldl signatureByte 0xFFFF#16

/-! ## Codes -/

/-- The code of a station state (R1). -/
def StationState.code : StationState → Byte
  | .awake => 0 | .dozing => 1 | .asleep => 2 | .waking => 3 | .unresponsive => 4 | .releasing => 5

/-- The code of a cause (R24). -/
def Cause.code : Cause → Byte
  | .doze => 1 | .drainEnd => 2 | .resume => 3 | .releaseEnd => 4 | .stationLinkDown => 5 | .ruleWake => 6
  | .fullWake => 7 | .linkWake => 8 | .managerWake => 9 | .attemptsSpent => 10 | .warmReset => 11

/-- The code of a class: 4 for class B (R48, R143). -/
def HoldClass.code : HoldClass → Byte
  | .c0 => 0 | .c1 => 1 | .c2 => 2 | .c3 => 3 | .b => 4

/-- The class of a code 0 to 4. -/
def HoldClass.ofCode (n : Byte) : Option HoldClass :=
  if n = 0 then some .c0 else if n = 1 then some .c1 else if n = 2 then some .c2 else if n = 3 then some .c3
  else if n = 4 then some .b else none

/-- The class that a rule or a profile names, 0 to 3. -/
def HoldClass.ofIndex (i : Fin 4) : HoldClass :=
  match i with
  | 0 => .c0 | 1 => .c1 | 2 => .c2 | 3 => .c3

/-- The code of an origin: 32 DEFAULT, 33 BACKLOG (R48). -/
def Origin.code : Origin → Byte
  | .rule i => byteOf i | .byDefault => 32 | .backlog => 33

/-- The code of a descriptor's state (R146). -/
def DescState.code : DescState → Byte
  | .held => 0 | .delivering => 1

/-- The code of the active profile in STATUS (R146). -/
def ActiveProfile.code : ActiveProfile → Byte
  | .record i => byteOf i.val | .builtIn => 4 | .none => 0xFF

/-- A yes-or-no field (R143). -/
def boolByte (b : Bool) : Byte := if b then 1 else 0

/-- A yes-or-no field as read: `none` for any value but 0 and 1 (R143). -/
def readBool (b : Byte) : Option Bool := if b = 0 then some false else if b = 1 then some true else none

/-- A number from a byte when it lies below the bound, `none` otherwise. -/
def readFin (n : Nat) (b : Byte) : Option (Fin n) := if h : b.toNat < n then some ⟨b.toNat, h⟩ else none

/-- A set of rule sets as read: `none` when a bit of value 10 hex or above is set (R143). -/
def readSets (b : Byte) : Option (BitVec 4) := if b.toNat < 16 then some (b.setWidth 4) else none

/-- A number as read when a test holds of it. -/
def readNat (ok : Nat → Bool) (n : Nat) : Option Nat := if ok n then some n else none

/-- The status of a response (R128). -/
inductive Status where
  | ok | badVersion | badLength | badCode | notBound | boundElsewhere | outOfSequence | badIndex | badValue
  | wrongState | notPermitted | profileUndefined | stale
deriving DecidableEq, Repr

/-- The code of a status (R128). -/
def Status.code : Status → Byte
  | .ok => 0 | .badVersion => 1 | .badLength => 2 | .badCode => 3 | .notBound => 4 | .boundElsewhere => 5
  | .outOfSequence => 6 | .badIndex => 7 | .badValue => 8 | .wrongState => 9 | .notPermitted => 10
  | .profileUndefined => 11 | .stale => 12

/-- The commands of R130. -/
inductive Cmd where
  | identify | bind | unbind | status | ruleStage | ruleDiscard | ruleCommit | ruleRead | profileWrite
  | profileRead | templateWrite | templateRead | classWrite | classRead | holdList | holdPurge | wake
  | noticeAck | noticeMask | countersRead | reset | doze | resume | stationQuery
deriving DecidableEq, Repr

/-- The code of a command (R130). -/
def Cmd.code : Cmd → Byte
  | .identify => 0x01 | .bind => 0x02 | .unbind => 0x03 | .status => 0x04 | .ruleStage => 0x10
  | .ruleDiscard => 0x11 | .ruleCommit => 0x12 | .ruleRead => 0x13 | .profileWrite => 0x18
  | .profileRead => 0x19 | .templateWrite => 0x1C | .templateRead => 0x1D | .classWrite => 0x20
  | .classRead => 0x21 | .holdList => 0x28 | .holdPurge => 0x29 | .wake => 0x30 | .noticeAck => 0x38
  | .noticeMask => 0x39 | .countersRead => 0x40 | .reset => 0x7F | .doze => 0x50 | .resume => 0x51
  | .stationQuery => 0x52

/-- All commands, in the order of R130. -/
def Cmd.all : List Cmd :=
  [.identify, .bind, .unbind, .status, .ruleStage, .ruleDiscard, .ruleCommit, .ruleRead, .profileWrite,
   .profileRead, .templateWrite, .templateRead, .classWrite, .classRead, .holdList, .holdPurge, .wake,
   .noticeAck, .noticeMask, .countersRead, .reset, .doze, .resume, .stationQuery]

/-- The command of a code, `none` when the code is not a command code (R130). -/
def Cmd.ofCode (code : Byte) : Option Cmd := Cmd.all.find? (fun c => c.code == code)

/-- The parameter lengths a command permits (R130). -/
def Cmd.lengthOk (c : Cmd) (n : Nat) : Bool :=
  match c with
  | .identify | .unbind | .status | .ruleDiscard | .ruleCommit | .wake | .resume | .stationQuery => n == 0
  | .profileRead | .templateRead | .classRead | .noticeMask | .reset | .doze => n == 1
  | .bind | .ruleRead | .noticeAck | .countersRead => n == 2
  | .holdList => n == 3
  | .holdPurge => n == 4
  | .classWrite => n == 6
  | .profileWrite => n == 13
  | .ruleStage => n == 2 || (decide (25 ≤ n) && decide (n ≤ 41))
  | .templateWrite => n == 2 || (decide (65 ≤ n) && decide (n ≤ 285))

/-- Whether a command is permitted on a port (R130, R142). -/
def Cmd.permitted (c : Cmd) (p : Port) : Bool :=
  match c, p with
  | .identify, _ => true
  | .doze, .station | .resume, .station | .stationQuery, .station => true
  | .doze, .line | .resume, .line | .stationQuery, .line => false
  | _, .line => true
  | _, .station => false

/-- Whether a command is bound-only (R129, R130). -/
def Cmd.boundOnly : Cmd → Bool
  | .identify | .bind | .doze | .resume | .stationQuery => false
  | _ => true

/-! ## The control frame (R126) -/

/-- A control frame as the control responder reads it: the header fields it examines, the parameters, and
the length of the frame that carried them. -/
structure Ctl where
  port : Port
  source : Mac
  version : Byte
  kind : Byte
  code : Byte
  seq : Word16
  tag : Word16
  plen : Nat
  params : List Byte
  frameLength : Nat
deriving DecidableEq, Repr

/-- The control frame in a received frame (R126). -/
def Ctl.ofFrame (p : Port) (f : Frame) : Ctl :=
  { port := p
    source := macAt f 6
    version := byteAt f 14
    kind := byteAt f 15
    code := byteAt f 16
    seq := word16At f 18
    tag := word16At f 20
    plen := natAt f 22 2
    params := (f.drop 24).take (natAt f 22 2)
    frameLength := f.length }

/-- The length of the frame that carries `n` bytes of parameters: 24 of header, the parameters, 4 of FCS,
and no less than the least frame (R112, R126). -/
def ctlFrameLength (n : Nat) : Nat := max Config.minFrame (24 + n + 4)

/-- The control frame of a command of the table: version 1, kind 1, and these parameters (R126). -/
def Ctl.ofCommand (h : CmdHeader) (c : Cmd) (params : List Byte) : Ctl :=
  { port := h.port, source := h.source, version := 1, kind := 1, code := c.code, seq := h.seq, tag := h.tag,
    plen := params.length, params := params, frameLength := ctlFrameLength params.length }

/-- The bytes of a command's frame sent to `dst`, as its sender puts them on the wire (R126). -/
def commandFrame (dst : Mac) (h : CmdHeader) (c : Cmd) (params : List Byte) : Frame :=
  closed (padTo 60 (macBytes dst ++ macBytes h.source ++ be16 Config.controlType ++ [1, 1, c.code, 0] ++
    be16 h.seq ++ be16 h.tag ++ nat16 params.length ++ params))

/-- The bytes of a frame that the part originates: header, body, padding to 60 bytes, FCS (R118, R126). -/
def CtlFrame.wire (c : CtlFrame) : Frame :=
  closed (padTo 60 (macBytes c.dst ++ macBytes c.src ++ be16 Config.controlType ++ [1, c.kind, c.code, c.status] ++
    be16 c.seq ++ be16 c.tag ++ nat16 c.body.length ++ c.body))

/-! ## The rule record (R144) -/

/-- The flag of window byte `k` in the eight mask bytes: the bit 80 hex shifted right by k modulo 8 (R144). -/
def maskFlag (maskBytes : List Byte) (k : Nat) : Bool := (byteAt maskBytes (k / 8)).getLsbD (7 - k % 8)

/-- The flags of the first `n` window bytes. -/
def maskFlags (maskBytes : List Byte) (n : Nat) : List Bool := (List.range n).map (maskFlag maskBytes)

/-- One mask byte from its eight flags. -/
def maskByte (flags : List Bool) (i : Nat) : Byte :=
  (List.range 8).foldl (fun b j => if flags.getD (8 * i + j) false then b ||| (0x80#8 >>> j) else b) 0

/-- The eight mask bytes of a list of flags (R144). -/
def maskBytes (flags : List Bool) : List Byte := (List.range 8).map (maskByte flags)

/-- The number of selected bytes. -/
def selectedCount (flags : List Bool) : Nat := (flags.filter id).length

/-- The guard of a code (R144). -/
def Guard.ofCode (b : Byte) : Option Guard :=
  if b = 0 then some .any else if b = 1 then some .toStation else if b = 2 then some .unicastOther
  else if b = 3 then some .group else if b = 4 then some .broadcast else none

/-- The code of a guard (R144). -/
def Guard.code : Guard → Byte
  | .any => 0 | .toStation => 1 | .unicastOther => 2 | .group => 3 | .broadcast => 4

/-- The disposition of a rule record's bytes 16 to 18; the class and the template are examined only where
they are present (R143, R144). -/
def readDisposition (kind cls template : Byte) : Option Disposition :=
  if kind = 0 then some .discard
  else if kind = 1 then (readFin 4 cls).map .hold
  else if kind = 2 then (readFin 16 template).map .answer
  else if kind = 3 then (readFin 16 template).bind fun t => (readFin 4 cls).map fun c => .answerHold t c
  else none

/-- The test of a rule record: its code, the expected signature and the expected list, against the mask's
flags (R26, R144). -/
def readTest (kind : Byte) (expected : Word16) (list : List Byte) (flags : List Bool) : Option RuleTest :=
  if kind = 0 then some (.signature expected)
  else if kind = 1 then
    if selectedCount flags ≤ 16 ∧ list.length = selectedCount flags then some (.exactly list) else none
  else none

/-- A record unless a condition refuses it. -/
def recordOrNone (refused : Bool) (r : RuleRecord) : Option RuleRecord := if refused then none else some r

/-- The rule record in a RULE_STAGE's bytes, `none` when any field or condition fails (R25, R26, R41, R144).
The length of the expected list has been judged before (R131). -/
def RuleRecord.read (r : List Byte) : Option RuleRecord := do
  let sets ← readSets (byteAt r 0)
  let guard ← Guard.ofCode (byteAt r 1)
  let minLength ← readNat (fun n => n == 0 || (decide (64 ≤ n) && decide (n ≤ 1522))) (natAt r 2 2)
  let offset ← readNat (fun n => decide (n ≤ 1517)) (natAt r 4 2)
  let length ← readNat (fun n => decide (1 ≤ n) && decide (n ≤ 64) && decide (offset + n ≤ 1522)) (natAt r 6 1)
  let flags := maskFlags ((r.drop 8).take 8) 64
  let test ← readTest (byteAt r 7) (word16At r 20) (r.drop 23) (flags.take length)
  let disposition ← readDisposition (byteAt r 16) (byteAt r 17) (byteAt r 18)
  let wake ← readBool (byteAt r 19)
  recordOrNone (sets == 0 || (flags.drop length).any id || selectedCount (flags.take length) == 0)
    { sets := sets, guard := guard, minLength := minLength, windowOffset := offset, mask := flags.take length,
      test := test, disposition := disposition, wake := wake }

/-- The three bytes of a disposition: its code, its class, its template, 0 where absent (R143, R144). -/
def Disposition.bytes : Disposition → List Byte
  | .discard => [0, 0, 0]
  | .hold c => [1, byteOf c.val, 0]
  | .answer t => [2, 0, byteOf t.val]
  | .answerHold t c => [3, byteOf c.val, byteOf t.val]

/-- The code of a test. -/
def RuleTest.code : RuleTest → Byte
  | .signature _ => 0 | .exactly _ => 1

/-- The expected signature, 0 where absent. -/
def RuleTest.expected : RuleTest → Word16
  | .signature e => e | .exactly _ => 0

/-- The expected byte list, empty where absent. -/
def RuleTest.list : RuleTest → List Byte
  | .signature _ => [] | .exactly l => l

/-- The bytes of a rule record as RULE_READ returns it (R144). -/
def RuleRecord.bytes (r : RuleRecord) : List Byte :=
  [r.sets.setWidth 8, r.guard.code] ++ nat16 r.minLength ++ nat16 r.windowOffset ++
    [byteOf r.mask.length, r.test.code] ++ maskBytes r.mask ++ r.disposition.bytes ++ [boolByte r.wake] ++
    be16 r.test.expected ++ [byteOf r.test.list.length] ++ r.test.list

/-- The condition of a staged entry (R144). -/
def StagedEntry.code : StagedEntry → Byte
  | .noChange => 0 | .stagedRecord _ => 1 | .stagedEmpty => 2

/-! ## The profile and class records (R145) -/

/-- The built-in profile (R6). -/
def Profile.builtIn : Profile :=
  { sets := 0, defaultDisposition := .hold 3, wakeMode := .level, timeout := 10, retries := 2,
    releaseDelay := 0, wakeOnLink := false }

/-- The default disposition of a profile record's bytes 2 and 3 (R145). -/
def readDefault (kind cls : Byte) : Option DefaultDisposition :=
  if kind = 0 then some .discard else if kind = 1 then (readFin 4 cls).map .hold else none

/-- The wake mode of a profile record's bytes 4 and 5 (R145). -/
def readWakeMode (kind width : Byte) : Option WakeMode :=
  if kind = 0 then if width = 0 then none else some (.pulse width.toNat)
  else if kind = 1 then some .level else none

/-- A defined profile record in its 12 bytes, `none` when a field is out of range (R5, R145, R154). -/
def Profile.read (r : List Byte) : Option Profile := do
  let sets ← readSets (byteAt r 1)
  let disposition ← readDefault (byteAt r 2) (byteAt r 3)
  let mode ← readWakeMode (byteAt r 4) (byteAt r 5)
  let timeout ← readNat (fun n => decide (1 ≤ n) && decide (n ≤ 120)) (natAt r 6 1)
  let retries ← readNat (fun n => decide (n ≤ 7)) (natAt r 7 1)
  let delay ← readNat (fun n => decide (n ≤ 1000)) (natAt r 8 2)
  let onLink ← readBool (byteAt r 10)
  some
    { sets := sets, defaultDisposition := disposition, wakeMode := mode, timeout := timeout, retries := retries,
      releaseDelay := delay, wakeOnLink := onLink }

/-- The two bytes of a default disposition (R145). -/
def DefaultDisposition.bytes : DefaultDisposition → List Byte
  | .discard => [0, 0] | .hold c => [1, byteOf c.val]

/-- The two bytes of a wake mode (R145). -/
def WakeMode.bytes : WakeMode → List Byte
  | .pulse w => [0, byteOf w] | .level => [1, 0]

/-- The 12 bytes of a profile record, all 0 when undefined (R145, R155). -/
def profileBytes : Option Profile → List Byte
  | none => List.replicate 12 0
  | some p =>
    [1, p.sets.setWidth 8] ++ p.defaultDisposition.bytes ++ p.wakeMode.bytes ++
      [byteOf p.timeout, byteOf p.retries] ++ nat16 p.releaseDelay ++ [boolByte p.wakeOnLink, 0]

/-- The policy of a code (R145). -/
def Policy.ofCode (b : Byte) : Option Policy :=
  if b = 0 then some .refuseNew else if b = 1 then some .evictOldest else if b = 2 then some .wakeOnFull else none

/-- The code of a policy (R145). -/
def Policy.code : Policy → Byte
  | .refuseNew => 0 | .evictOldest => 1 | .wakeOnFull => 2

/-- A class record, `none` when the quota or the policy is out of range (R67, R145). -/
def ClassConfig.read (quota lifetime : Nat) (policy : Byte) : Option ClassConfig :=
  if quota ≤ 384 then (Policy.ofCode policy).map fun p => { quota := quota, lifetime := lifetime, policy := p }
  else none

/-- The five bytes of a class record (R145). -/
def ClassConfig.bytes (c : ClassConfig) : List Byte := nat16 c.quota ++ nat16 c.lifetime ++ [c.policy.code]

/-- The six counters of an account in the order of R145. -/
def Account.counters (a : Account) : List Word32 :=
  [a.admitted, a.delivered, a.expired, a.evicted, a.refused, a.purged]

/-- The 27 bytes of a class account (R145). -/
def Account.bytes (a : Account) : List Byte :=
  nat16 a.used ++ [byteOf a.held] ++ a.counters.flatMap be32

/-! ## The template (R146) -/

/-- The number of bytes a source supplies (R101). -/
def Source.size : Source → Nat
  | .triggerSource | .stationAddress | .unitAddress => 6
  | .triggerBytes _ n => n

/-- A substitution in its six bytes; length and trigger offset are examined only under TRIGGER_BYTES, whose
offset is at most 1521 and whose length is 1 to 16 (R101, R102, R146). -/
def Substitution.read (r : List Byte) : Option Substitution :=
  let kind := byteAt r 2
  let source : Option Source :=
    if kind = 0 then some .triggerSource
    else if kind = 1 then some .stationAddress
    else if kind = 2 then some .unitAddress
    else if kind = 3 then
      if natAt r 4 2 ≤ 1521 ∧ 1 ≤ natAt r 3 1 ∧ natAt r 3 1 ≤ 16 then some (.triggerBytes (natAt r 4 2) (natAt r 3 1))
      else none
    else none
  source.map fun s => { target := natAt r 0 2, source := s }

/-- The list of `k` substitutions in the bytes from the head of `r`. -/
def readSubstitutions : Nat → List Byte → Option (List Substitution)
  | 0, _ => some []
  | k + 1, r => do
    let s ← Substitution.read (r.take 6)
    let rest ← readSubstitutions k (r.drop 6)
    some (s :: rest)

/-- A substitution fits a body of `n` bytes (R101). -/
def Substitution.fits (n : Nat) (s : Substitution) : Bool := decide (s.target + s.source.size ≤ n)

/-- The template in a TEMPLATE_WRITE's bytes (header, substitutions, body), `none` when a value check of R102
fails. The counts and the length have been judged before (R131). -/
def Template.read (r : List Byte) : Option Template := do
  let k := natAt r 2 1
  let subs ← readSubstitutions k (r.drop 3)
  let body := (r.drop (3 + 6 * k)).take (natAt r 0 2)
  if subs.all (Substitution.fits body.length) then some { body := body, substitutions := subs } else none

/-- The six bytes of a substitution (R146). -/
def Substitution.bytes (s : Substitution) : List Byte :=
  nat16 s.target ++
    match s.source with
    | .triggerSource => [0, 0, 0, 0]
    | .stationAddress => [1, 0, 0, 0]
    | .unitAddress => [2, 0, 0, 0]
    | .triggerBytes off n => [3, byteOf n] ++ nat16 off

/-- The bytes of a template as TEMPLATE_READ returns it (R146). -/
def Template.bytes (t : Template) : List Byte :=
  nat16 t.body.length ++ [byteOf t.substitutions.length] ++ t.substitutions.flatMap Substitution.bytes ++ t.body

/-! ## Notices (R147) -/

/-- The code of a notice (R130). -/
def NoticeBody.code : NoticeBody → Byte
  | .stateChange _ _ _ => 0x60 | .wakeFailed _ _ => 0x61 | .holdPressure _ _ _ => 0x62 | .lineLink _ => 0x63

/-- The mask bit of a notice's kind (R146). -/
def NoticeBody.maskBit : NoticeBody → Nat
  | .stateChange _ _ _ => 0 | .wakeFailed _ _ => 1 | .holdPressure _ _ _ => 2 | .lineLink _ => 3

/-- The bytes of a notice's body by its code (R147). -/
def NoticeBody.bytes : NoticeBody → List Byte
  | .stateChange a b c => [a.code, b.code, c.code]
  | .wakeFailed n held => [byteOf n, byteOf held]
  | .holdPressure c r e => [c.code] ++ be32 r ++ be32 e
  | .lineLink up => [boolByte up]

/-- A notice's parameters at a sending: part time and station state at the raise, the number of this sending,
the lost count at this sending, and the body (R147). -/
def Notice.bytes (n : Notice) (sending : Nat) (lost : Word16) : List Byte :=
  be32 n.time ++ [n.station.code, byteOf sending] ++ be16 lost ++ n.body.bytes

end Sys2Proof.Machine
end

