-- ==== Sys2Proof/Machine/Flags.lean ====
section
/-! DEFINITION. The gauges, counters and conditions of the part: what is counted and how, and when each of the
part's own steps is due. -/

namespace Sys2Proof.Machine

/-! ## The updates of State, one for each field -/

def State.setPending (s : State) (x : List Instr) : State := { s with pending := x }
def State.setPins (s : State) (x : Pins) : State := { s with pins := x }
def State.setUnitStraps (s : State) (x : BitVec 6) : State := { s with unitStraps := x }
def State.setTime (s : State) (x : Word32) : State := { s with time := x }
def State.setCtx (s : State) (x : Context) : State := { s with ctx := x }
def State.setRules (s : State) (x : Classifier) : State := { s with rules := x }
def State.setHold (s : State) (x : HoldStore) : State := { s with hold := x }
def State.setReleaseTimer (s : State) (x : ReleaseTimer) : State := { s with releaseTimer := x }
def State.setWake (s : State) (x : WakeController) : State := { s with wake := x }
def State.setAnswers (s : State) (x : AnswerGen) : State := { s with answers := x }
def State.setLine (s : State) (x : LinePort) : State := { s with line := x }
def State.setStation (s : State) (x : StationPort) : State := { s with station := x }
def State.setTransit (s : State) (x : Transit) : State := { s with transit := x }
def State.setResponder (s : State) (x : Responder) : State := { s with responder := x }
def State.setNotices (s : State) (x : NoticeUnit) : State := { s with notices := x }
def State.setFreeCount (s : State) (x : Nat) : State := { s with freeCount := x }

/-- The named field of a class's account. -/
def Accounts.get (a : Accounts) : HoldClass → Account
  | .c0 => a.c0 | .c1 => a.c1 | .c2 => a.c2 | .c3 => a.c3 | .b => a.b

/-- The accounts with one class's account replaced. -/
def Accounts.set (a : Accounts) (c : HoldClass) (x : Account) : Accounts :=
  match c with
  | .c0 => { a with c0 := x } | .c1 => { a with c1 := x } | .c2 => { a with c2 := x }
  | .c3 => { a with c3 := x } | .b => { a with b := x }

/-- The configuration of class B (R54). -/
def ClassConfig.backlog : ClassConfig := { quota := 384, lifetime := 0, policy := .refuseNew }

/-- The configuration of a class; class B's is fixed (R54). -/
def Configs.get (k : Configs) : HoldClass → ClassConfig
  | .c0 => k.c0 | .c1 => k.c1 | .c2 => k.c2 | .c3 => k.c3 | .b => ClassConfig.backlog

/-- The configurations with one class's replaced; class B's is not replaced (R54). -/
def Configs.set (k : Configs) (c : HoldClass) (x : ClassConfig) : Configs :=
  match c with
  | .c0 => { k with c0 := x } | .c1 => { k with c1 := x } | .c2 => { k with c2 := x }
  | .c3 => { k with c3 := x } | .b => k

/-- The five classes in the order of their codes. -/
def HoldClass.all : List HoldClass := [.c0, .c1, .c2, .c3, .b]

/-! ## Blocks, ages, gauges -/

/-- The blocks a frame of `length` bytes occupies (R47). -/
def blocksFor (length : Nat) : Nat := (length + (Config.blockBytes - 1)) / Config.blockBytes

/-- The block count of a descriptor (R47, R48). -/
def Descriptor.blocks (d : Descriptor) : Nat := blocksFor d.frame.length

/-- A descriptor is HELD (R49). -/
def Descriptor.isHeld (d : Descriptor) : Bool := d.state == .held

/-- A descriptor is DELIVERING (R49). -/
def Descriptor.isDelivering (d : Descriptor) : Bool := d.state == .delivering

/-- The age of a descriptor: part time less its arrival time, modulo 2^32 (R63). -/
def Descriptor.age (d : Descriptor) (now : Word32) : Word32 := now - d.arrival

/-- The age of a descriptor has reached the lifetime, if there is one (R63). -/
def Descriptor.outlived (d : Descriptor) (lifetime : Nat) (now : Word32) : Bool :=
  lifetime != 0 && decide (lifetime * 1000 ≤ (d.age now).toNat)

/-- A HELD descriptor that expires under these configurations (R63, R64). -/
def Descriptor.expires (d : Descriptor) (k : Configs) (now : Word32) : Bool :=
  d.isHeld && d.outlived (k.get d.cls).lifetime now

/-- The account after a frame of `n` blocks joins the class (R55, R56). -/
def Account.join (a : Account) (n : Nat) : Account :=
  { a with used := a.used + n, held := a.held + 1, admitted := a.admitted + 1 }

/-- The account after a frame of `n` blocks leaves the class (R55). -/
def Account.leave (a : Account) (why : Leave) (n : Nat) : Account :=
  let a := { a with used := a.used - n, held := a.held - 1 }
  match why with
  | .delivered => { a with delivered := a.delivered + 1 }
  | .expired => { a with expired := a.expired + 1 }
  | .evicted => { a with evicted := a.evicted + 1 }
  | .purged => { a with purged := a.purged + 1 }

/-- A frame offered to the class and not admitted (R57). -/
def Account.refuse (a : Account) : Account := { a with refused := a.refused + 1 }

/-! ## Counters of the ports and of the responder -/

/-- A change of a port's counters. -/
def State.mapCounters (s : State) (p : Port) (f : PortCounters → PortCounters) : State :=
  match p with
  | .line => s.setLine { s.line with counters := f s.line.counters }
  | .station => s.setStation { s.station with counters := f s.station.counters }

/-- An intake error at a port (R112). -/
def State.countIntakeError (s : State) (p : Port) : State :=
  s.mapCounters p fun c => { c with intakeErrors := c.intakeErrors + 1 }

/-- A frame that passes intake at a port (R112). -/
def State.countReceived (s : State) (p : Port) : State :=
  s.mapCounters p fun c => { c with received := c.received + 1 }

/-- A control frame handed to the control responder (R114). -/
def State.countConsumed (s : State) (p : Port) : State :=
  s.mapCounters p fun c => { c with controlConsumed := c.controlConsumed + 1 }

/-- A transmission completed at a port (R117, R119). -/
def State.countTransmitted (s : State) (p : Port) : State :=
  s.mapCounters p fun c => { c with transmitted := c.transmitted + 1 }

/-- A frame lost for a full transit queue to a port (R115, R116). -/
def State.countTransitDrop (s : State) (p : Port) : State :=
  s.mapCounters p fun c => { c with transitDrops := c.transitDrops + 1 }

/-- `n` frames discarded from, or refused to, a port's egress while its link is lost or down (R124). -/
def State.countLinkDown (s : State) (p : Port) (n : Nat) : State :=
  s.mapCounters p fun c => { c with linkDownDiscards := c.linkDownDiscards + BitVec.ofNat 32 n }

/-- A malformed control frame on a port (R127). -/
def State.countMalformed (s : State) (p : Port) : State :=
  let r := s.responder
  match p with
  | .line => s.setResponder { r with lineMalformed := r.lineMalformed + 1 }
  | .station => s.setResponder { r with stationMalformed := r.stationMalformed + 1 }

/-- A control frame discarded as overrun on a port (R127, R140). -/
def State.countOverrun (s : State) (p : Port) : State :=
  let r := s.responder
  match p with
  | .line => s.setResponder { r with lineOverrun := r.lineOverrun + 1 }
  | .station => s.setResponder { r with stationOverrun := r.stationOverrun + 1 }

/-! ## Readings of the state -/

/-- The WAKE pin: high while the wake line is ASSERTED, low throughout hardware reset (R125). -/
def State.wakePin (s : State) : Bool := s.pins.resetn && s.wake.line == .asserted

/-- The part's unit address (R113). -/
def State.unitAddress (s : State) : Mac := Config.unitBase ||| s.unitStraps.setWidth 48

/-- The link of a port is UP (R111). -/
def State.linkUp (s : State) : Port → Bool
  | .line => s.line.linkUp
  | .station => s.station.linkUp

/-- The held count: the length of the hold list (R52). -/
def State.heldCount (s : State) : Nat := s.hold.list.length

/-- The delivering descriptor, if any (R73). -/
def State.delivering (s : State) : Option Descriptor := s.hold.list.find? Descriptor.isDelivering

/-- The drain condition: the L→S transit queue is empty and nothing is DELIVERING (R16). -/
def State.drained (s : State) : Bool := s.transit.toStation.isEmpty && s.delivering.isNone

/-- The profile that governs: the active record as it stands, or the built-in profile (R7). Where none is
active, or the record is undefined (in AWAKE, or in states that no run reaches), the built-in values stand in
(log entry 9). -/
def State.activeProfile (s : State) : Profile :=
  match s.ctx.active with
  | .record i => (s.ctx.profiles.getD i.val none).getD Profile.builtIn
  | .builtIn => Profile.builtIn
  | .none => Profile.builtIn

/-- The station state is an away state (R1). -/
def StationState.away : StationState → Bool
  | .dozing | .asleep | .waking | .unresponsive => true
  | .awake | .releasing => false

/-- The control queue of a port (R118, R120). -/
def State.controlQueue (s : State) : Port → List CtlFrame
  | .line => s.line.control
  | .station => s.station.control

/-- The capacity of a port's control queue (R118, R120). -/
def controlCap : Port → Nat
  | .line => Config.lineControlCap
  | .station => Config.stationControlCap

/-- The response that a pending reset waits for: the OK response to a RESET, kind 2 (R141). -/
def CtlFrame.isResetResponse (c : CtlFrame) : Bool :=
  c.kind == 2 && c.code == Cmd.reset.code && c.status == Status.ok.code

/-! ## When each of the part's own steps is due -/

/-- A pending reset takes effect: its response has left the line control queue (R141). -/
def State.resetDue (s : State) : Bool :=
  s.responder.resetPending.isSome && !(s.line.control.any CtlFrame.isResetResponse)

/-- The release ends: RELEASING with an empty hold list, hence nothing DELIVERING (R19). -/
def State.releaseEndDue (s : State) : Bool := s.ctx.station == .releasing && s.hold.list.isEmpty

/-- The DOZING drain ends (R16). -/
def State.drainEndDue (s : State) : Bool := s.ctx.station == .dozing && s.drained

/-- A delivery begins (R76). -/
def State.deliveryDue (s : State) : Bool :=
  s.ctx.station == .releasing && s.releaseTimer == .expired && s.transit.toStation.isEmpty &&
    !s.hold.list.isEmpty && s.delivering.isNone

/-- The line egress arbiter chooses (R117). -/
def State.lineChoiceDue (s : State) : Bool :=
  s.line.tx.isNone && s.line.linkUp &&
    !(s.line.control.isEmpty && s.answers.queue.isEmpty && s.transit.toLine.isEmpty)

/-- The station egress arbiter chooses (R119). -/
def State.stationChoiceDue (s : State) : Bool :=
  s.station.tx.isNone && s.station.linkUp &&
    !(s.station.control.isEmpty && s.delivering.isNone && s.transit.toStation.isEmpty)

/-- The head of the notice queue is offered (R170). -/
def State.offerDue (s : State) : Bool :=
  (match s.notices.queue with
    | [] => false
    | n :: _ => decide (n.transmissions < Config.maxTransmissions)) &&
  s.responder.binding.isSome && s.notices.timer == .stopped &&
  decide (s.line.control.length < Config.lineControlCap)

end Sys2Proof.Machine
end

