-- ==== Sys2Proof/Machine/Ops.lean ====
section
/-! DEFINITION. The shared operations of the blocks: raising and offering notices, changes of station state, wake
decisions and the wake sequence, the hold store, the arbiters, and the steps the part takes of its own accord
inside an event (`settle`). -/

namespace Sys2Proof.Machine

/-! ## Notices (R168, R169) -/

/-- A HOLD_PRESSURE record of this class that has not been transmitted (R168). -/
def Notice.coalesces (n : Notice) (cls : HoldClass) : Bool :=
  match n.body with
  | .holdPressure c _ _ => c == cls && n.transmissions == 0
  | _ => false

/-- The record with the counts added (R169). -/
def Notice.addCounts (n : Notice) (r e : Word32) : Notice :=
  match n.body with
  | .holdPressure c r0 e0 => { n with body := .holdPressure c (r0 + r) (e0 + e) }
  | _ => n

/-- The queue with the counts added to its first record that coalesces (R169). -/
def coalesceIn (cls : HoldClass) (r e : Word32) : List Notice → List Notice
  | [] => []
  | n :: rest => if n.coalesces cls then n.addCounts r e :: rest else n :: coalesceIn cls r e rest

/-- A new record for the tail of the queue, or a lost notice (R168, cases 3 and 4). -/
def NoticeUnit.join (u : NoticeUnit) (body : NoticeBody) (now : Word32) (st : StationState) : NoticeUnit :=
  if Config.noticeCap ≤ u.queue.length then { u with lost := u.lost + 1 }
  else
    { u with
      queue := u.queue ++ [{ serial := u.serial, body := body, time := now, station := st, transmissions := 0 }]
      serial := u.serial + 1 }

/-- A raise settled by the notice unit: masked, coalesced, lost or queued (R168). -/
def NoticeUnit.raise (u : NoticeUnit) (body : NoticeBody) (now : Word32) (st : StationState) : NoticeUnit :=
  if u.mask.getLsbD body.maskBit then
    match body with
    | .holdPressure c r e =>
      if u.queue.any (fun n => n.coalesces c) then { u with queue := coalesceIn c r e u.queue }
      else u.join body now st
    | _ => u.join body now st
  else u

/-- A notice raised at this event, with the part time and the station state as they stand (R168). -/
def State.raise (s : State) (body : NoticeBody) : State :=
  s.setNotices (s.notices.raise body s.time s.ctx.station)

/-! ## The station context and the wake controller -/

/-- A change of the station state, with its STATE_CHANGE notice (R24). -/
def State.changeState (s : State) (entered : StationState) (cause : Cause) : State :=
  (s.setCtx { s.ctx with station := entered }).raise (.stateChange s.ctx.station entered cause)

/-- An attempt starts with the active profile's wake values as they stand (R94). -/
def State.startAttempt (s : State) (attempt : Nat) : State :=
  let p := s.activeProfile
  s.setWake
    { line := .asserted
      phase := .attempt
      attempt := attempt
      terms := some { mode := p.wakeMode, timeout := p.timeout, retries := p.retries }
      attemptTimer := .running (p.timeout * 1000)
      pulseTimer := match p.wakeMode with | .pulse w => .running w | .level => .stopped }

/-- Entry to WAKING: the notice, and the first attempt of a fresh sequence (R90, R93). -/
def State.enterWaking (s : State) (cause : Cause) : State := (s.changeState .waking cause).startAttempt 1

/-- The wake sequence ends, or what a failed one left is cleared (R98). -/
def State.endSequence (s : State) : State := s.setWake WakeController.initial

/-- A wake decision, judged by the station state (R88 to R92). -/
def State.wakeDecision (s : State) (cause : Cause) : State :=
  match s.ctx.station with
  | .awake | .releasing | .waking => s
  | .dozing => s.setCtx { s.ctx with wakePending := true }
  | .asleep => s.enterWaking cause
  | .unresponsive => if cause = .managerWake then s.enterWaking cause else s

/-- The profile that station link loss falls back on: profile 0 if defined, else the built-in (R7, R20). -/
def Context.fallback (c : Context) : ActiveProfile :=
  if (c.profiles.getD 0 none).isSome then .record 0 else .builtIn

/-- The release delay timer as it starts (R74). -/
def ReleaseTimer.start (delay : Nat) : ReleaseTimer := if delay = 0 then .expired else .running delay

/-! ## The hold store (R47 to R66) -/

/-- A descriptor is freed: its blocks return and its class's account follows (R47, R50, R58, R63, R65). -/
def HoldStore.free (h : HoldStore) (why : Leave) (d : Descriptor) : HoldStore :=
  { h with
    freeBlocks := h.freeBlocks + d.blocks
    accounts := h.accounts.set d.cls ((h.accounts.get d.cls).leave why d.blocks) }

/-- Every selected descriptor leaves the hold list, in list order; the others keep theirs (R52). -/
def HoldStore.remove (h : HoldStore) (sel : Descriptor → Bool) (why : Leave) : HoldStore :=
  (h.list.filter sel).foldl (fun h d => h.free why d) { h with list := h.list.filter fun d => !sel d }

/-- The oldest selected descriptor leaves the hold list. -/
def HoldStore.removeFirst (h : HoldStore) (sel : Descriptor → Bool) (why : Leave) : HoldStore :=
  match h.list.find? sel with
  | none => h
  | some d => { h with list := h.list.eraseP sel }.free why d

/-- Condition 4 of an admission: next serial lies less than 32768 beyond the head's (R53, R56). -/
def HoldStore.serialRoom (h : HoldStore) : Bool :=
  match h.list with
  | [] => true
  | d :: _ => decide ((h.nextSerial - d.serial).toNat ≤ 32767)

/-- The four conditions of an admission of `n` blocks to a class (R56). -/
def HoldStore.fits (h : HoldStore) (c : HoldClass) (n : Nat) : Bool :=
  decide (h.list.length < Config.descriptors) && decide (n ≤ h.freeBlocks) &&
    decide ((h.accounts.get c).used + n ≤ (h.configs.get c).quota) && h.serialRoom

/-- The frame is admitted at the tail with the next serial (R53, R56). -/
def HoldStore.accept (h : HoldStore) (c : HoldClass) (o : Origin) (f : Frame) (now : Word32) : HoldStore :=
  let n := blocksFor f.length
  { h with
    freeBlocks := h.freeBlocks - n
    list := h.list ++ [{ serial := h.nextSerial, cls := c, origin := o, arrival := now, state := .held, frame := f }]
    nextSerial := h.nextSerial + 1
    accounts := h.accounts.set c ((h.accounts.get c).join n) }

/-- A HELD descriptor of the class: what an eviction may take (R58). -/
def Descriptor.evictable (c : HoldClass) (d : Descriptor) : Bool := d.isHeld && d.cls == c

/-- The oldest HELD frames of the class are evicted one after another until the conditions hold: the store so
reached and the number evicted, or `none` when even the eviction of them all does not suffice (R58). `fuel` bounds
the evictions by the length of the list. -/
def HoldStore.evictUntil (c : HoldClass) (n : Nat) : Nat → HoldStore → Option (HoldStore × Nat)
  | 0, h => if h.fits c n then some (h, 0) else none
  | fuel + 1, h =>
    if h.fits c n then some (h, 0)
    else if h.list.any (Descriptor.evictable c) then
      (evictUntil c n fuel (h.removeFirst (Descriptor.evictable c) .evicted)).map fun r => (r.1, r.2 + 1)
    else none

/-- What an offer came to (R56 to R61). -/
inductive Offer where
  | admitted
  | evicted (count : Nat)
  | refused (wake : Bool)
deriving DecidableEq, Repr

/-- The refusal of a frame by the store (R57). -/
def HoldStore.refuse (h : HoldStore) (c : HoldClass) : HoldStore :=
  { h with accounts := h.accounts.set c (h.accounts.get c).refuse }

/-- An admission request: admitted, admitted with evictions, or refused, by the class's policy (R56 to R61). -/
def HoldStore.offer (h : HoldStore) (c : HoldClass) (o : Origin) (f : Frame) (now : Word32) : HoldStore × Offer :=
  let n := blocksFor f.length
  if h.fits c n then (h.accept c o f now, .admitted)
  else
    match (h.configs.get c).policy with
    | .refuseNew => (h.refuse c, .refused false)
    | .wakeOnFull => (h.refuse c, .refused true)
    | .evictOldest =>
      match HoldStore.evictUntil c n h.list.length h with
      | some (h', evicted) => (h'.accept c o f now, .evicted evicted)
      | none => (h.refuse c, .refused false)

/-- A frame offered to the hold store: the admission, its HOLD_PRESSURE report, and the wake decision of
WAKE_ON_FULL after the report (R56 to R61). -/
def State.offerFrame (s : State) (c : HoldClass) (o : Origin) (f : Frame) : State :=
  let r := s.hold.offer c o f s.time
  let s := s.setHold r.1
  match r.2 with
  | .admitted => s
  | .evicted n => s.raise (.holdPressure c 0 (BitVec.ofNat 32 n))
  | .refused wake =>
    let s := s.raise (.holdPressure c 1 0)
    if wake then s.wakeDecision .fullWake else s

/-- The serial distance of a descriptor from the head (R53, R66). -/
def serialFrom (head serial : Word16) : Nat := (serial - head).toNat

/-- The store with the DELIVERING descriptor returned to HELD (R51). -/
def HoldStore.returnHeld (h : HoldStore) : HoldStore :=
  { h with list := h.list.map fun d => { d with state := .held } }

/-- The store with the head DELIVERING (R50). -/
def HoldStore.beginDelivery (h : HoldStore) : HoldStore :=
  match h.list with
  | [] => h
  | d :: rest => { h with list := { d with state := .delivering } :: rest }

/-! ## Transmissions (R83, R117, R119) -/

/-- The frame that the line port is transmitting. -/
def State.lineTxFrame (s : State) : Option Frame :=
  match s.line.tx with
  | none => none
  | some .control => s.line.control.head?.map CtlFrame.wire
  | some .answer => s.answers.queue.head?
  | some .transit => s.transit.toLine.head?

/-- The frame that the station port is transmitting. -/
def State.stationTxFrame (s : State) : Option Frame :=
  match s.station.tx with
  | none => none
  | some .control => s.station.control.head?.map CtlFrame.wire
  | some .release => s.delivering.map Descriptor.frame
  | some .transit => s.transit.toStation.head?

/-- The bytes of a frame that had left a port at its transmission's `k`-th early end: fewer than all of it, their
number a free value (R83; log entry 23). -/
def bytesSent (p : Port) (k : Nat) (frame : Frame) : List Byte :=
  frame.take (Config.freeSentLength p k % frame.length)

/-- The four bytes that close what a port had sent at a reset: any but the valid FCS for it, a free value (R83, R123;
log entry 23). -/
def wrongFcs (p : Port) (k : Nat) (sent : List Byte) : List Byte :=
  let x := Config.freeWrongFcs p k
  le32 (if x = fcs sent then ~~~x else x)

/-- The bytes that the receiver has of a transmission that ended in this way: the whole frame; what had left, closed
with a wrong FCS; what had left (R83, R117, R119, R123). -/
def bytesReceived (p : Port) (k : Nat) (frame : Frame) : TxEnd → List Byte
  | .completed => frame
  | .cutBadFcs => bytesSent p k frame ++ wrongFcs p k (bytesSent p k frame)
  | .stoppedAtLoss => bytesSent p k frame

/-- A port's record after its transmission ended in this way; a port that was idle keeps the one before
(log entry 10). -/
def sentAfter (p : Port) (before : SentLog) (frame : Option Frame) (how : TxEnd) : SentLog :=
  match frame with
  | none => before
  | some f =>
    { last := some { ending := how, frame := f, bytes := bytesReceived p before.cuts f how }
      cuts := if how = .completed then before.cuts else before.cuts + 1 }

/-- The line transmission, if any, ends in this way (R83, R117, R121, R123). -/
def State.endLineTx (s : State) (how : TxEnd) : State :=
  s.setLine { s.line with tx := none, lastSent := sentAfter .line s.line.lastSent s.lineTxFrame how }

/-- The station transmission, if any, ends in this way (R83, R119, R122, R123). -/
def State.endStationTx (s : State) (how : TxEnd) : State :=
  s.setStation { s.station with tx := none, lastSent := sentAfter .station s.station.lastSent s.stationTxFrame how }

/-- A DELIVERING frame in transmission is cut and counted (R83). -/
def State.countReleaseCut (s : State) : State :=
  if s.station.tx = some .release then s.setStation { s.station with releaseCut := s.station.releaseCut + 1 } else s

/-! ## Resets (R4, R71, R72, R110, R123, R141, R163, R167) -/

/-- The outcomes of a WARM reset in every block (R163), before its STATE_CHANGE. -/
def State.warmClear (s : State) : State :=
  let s := (s.countReleaseCut.endStationTx .cutBadFcs).endLineTx .cutBadFcs
  let s := s.setCtx { Context.initial with profiles := s.ctx.profiles }
  let s := s.setHold (s.hold.remove (fun _ => true) .purged)
  let s := s.setReleaseTimer .stopped
  let s := s.setWake WakeController.initial
  let s := s.setAnswers { s.answers with queue := [] }
  let s := s.setLine { s.line with rx := none, control := [] }
  let s := s.setStation { s.station with rx := none, control := [] }
  let s := s.setTransit Transit.empty
  s.setResponder { s.responder with resetPending := none }

/-- A WARM reset, with the STATE_CHANGE of R24 against the state the reset leaves (R141). -/
def State.warmReset (s : State) : State :=
  if s.ctx.station = .awake then s.warmClear
  else s.warmClear.raise (.stateChange s.ctx.station .awake .warmReset)

/-- The blocks at their hardware reset values, with the transmissions cut; link states are parameters, and the
model's own fields are kept (R71, R123, R141, R163, R167, R177; log entries 10, 16). -/
def State.blocksReset (s : State) (lineUp stationUp : Bool) : State :=
  let s := (s.endStationTx .cutBadFcs).endLineTx .cutBadFcs
  { s with
    ctx := Context.initial
    rules := Classifier.initial
    hold := HoldStore.initial
    releaseTimer := .stopped
    wake := WakeController.initial
    answers := AnswerGen.initial
    line := { LinePort.initial lineUp with lastSent := s.line.lastSent }
    station := { StationPort.initial stationUp with lastSent := s.station.lastSent }
    transit := Transit.empty
    responder := Responder.initial
    notices := NoticeUnit.initial }

/-- A COLD reset: the hardware reset values, but the unit address, the link states and part time are kept
(R141, R163). -/
def State.coldReset (s : State) : State := s.blocksReset s.line.linkUp s.station.linkUp

/-- The reset that is pending is carried out and the condition cleared (R141). -/
def State.takeReset (s : State) : State :=
  match s.responder.resetPending with
  | none => s
  | some .warm => s.warmReset
  | some .cold => s.coldReset

/-! ## The part's own steps -/

/-- The release ends (R19). -/
def State.releaseEnd (s : State) : State := (s.setReleaseTimer .stopped).changeState .awake .releaseEnd

/-- The drain ends, into WAKING where the wake pending flag is set (R16, R17). -/
def State.drainEnd (s : State) : State :=
  if s.ctx.wakePending then (s.setCtx { s.ctx with wakePending := false }).enterWaking .drainEnd
  else s.changeState .asleep .drainEnd

/-- A delivery begins: the head becomes DELIVERING (R76). -/
def State.beginDelivery (s : State) : State := s.setHold s.hold.beginDelivery

/-- The line egress arbiter's choice: control, then answers, then S→L transit (R117). -/
def State.lineChoice (s : State) : State :=
  s.setLine
    { s.line with
      tx := some (if !s.line.control.isEmpty then .control else if !s.answers.queue.isEmpty then .answer
        else .transit) }

/-- The station egress arbiter's choice: control, then the release source, then L→S transit (R119). -/
def State.stationChoice (s : State) : State :=
  s.setStation
    { s.station with
      tx := some (if !s.station.control.isEmpty then .control else if s.delivering.isSome then .release
        else .transit) }

/-- The notice frame of a record at a sending, to the bound manager (R126, R147, R170). -/
def State.noticeFrame (s : State) (manager : Mac) (n : Notice) : CtlFrame :=
  { dst := manager, src := s.unitAddress, kind := 3, code := n.body.code, status := 0, seq := n.serial, tag := 0,
    body := n.bytes (n.transmissions + 1) s.notices.lost }

/-- A notice frame put to the line egress: it joins the line control queue, or is discarded at once and counted
while the link is DOWN (R117, R170). -/
def State.sendNotice (s : State) (f : CtlFrame) : State :=
  if s.line.linkUp then s.setLine { s.line with control := s.line.control ++ [f] } else s.countLinkDown .line 1

/-- The head of the notice queue is offered: counted, its timer started, its frame sent (R170). -/
def State.noticeOffer (s : State) : State :=
  match s.notices.queue, s.responder.binding with
  | n :: rest, some b =>
    (s.setNotices
      { s.notices with
        queue := { n with transmissions := n.transmissions + 1 } :: rest
        timer := .running Config.retransmitMs }).sendNotice (s.noticeFrame b.manager n)
  | _, _ => s

/-- One of the part's own steps, where it is due. -/
def State.when (s : State) (due : Bool) (step : State → State) : State := if due then step s else s

def State.settleReset (s : State) : State := s.when s.resetDue State.takeReset
def State.settleReleaseEnd (s : State) : State := s.when s.releaseEndDue State.releaseEnd
def State.settleDrainEnd (s : State) : State := s.when s.drainEndDue State.drainEnd
def State.settleDelivery (s : State) : State := s.when s.deliveryDue State.beginDelivery
def State.settleLine (s : State) : State := s.when s.lineChoiceDue State.lineChoice
def State.settleStation (s : State) : State := s.when s.stationChoiceDue State.stationChoice
def State.settleOffer (s : State) : State := s.when s.offerDue State.noticeOffer

/-- What the part does of its own accord within the event that makes it possible: a pending reset, the end of a
release or of a drain, the begin of a delivery (R16, R19, R76, R141), the arbiters' choices, the offer of the
head notice, and the line arbiter again for a frame so offered (R117, R119, R170). The order of the line
arbiter's choice and the offer is DEDUCED from R141 (log entry 7). -/
def State.settle (s : State) : State :=
  s.settleReset.settleReleaseEnd.settleDrainEnd.settleDelivery.settleLine.settleStation.settleOffer.settleLine

/-! ## Outcomes -/

/-- The outcome of an event while RESETN is high; while it is low no event is taken (R125). -/
def State.event (s : State) (f : State → State) : Host.Outcome State Fault Refusal :=
  .next (if s.pins.resetn then f s else s)

end Sys2Proof.Machine
end

