-- ==== Sys2Proof/Machine/Classifier.lean ====
section
/-! DEFINITION. The classifier and the answer generator: what becomes of a line frame while the station is away
(R25 to R46, R100 to R110). -/

namespace Sys2Proof.Machine

/-! ## Answers (R101, R104, R105) -/

/-- The bytes a source supplies at this event, `none` when it cannot (R105). -/
def State.supply (s : State) (trigger : Frame) : Source → Option (List Byte)
  | .triggerSource => some ((trigger.drop 6).take 6)
  | .stationAddress => s.ctx.address.map macBytes
  | .unitAddress => some (macBytes s.unitAddress)
  | .triggerBytes offset n =>
    if offset + n ≤ trigger.length then some ((trigger.drop offset).take n) else none

/-- Bytes written over a body from an offset (R104). -/
def overwrite (body : List Byte) (offset : Nat) (bytes : List Byte) : List Byte :=
  body.take offset ++ bytes ++ body.drop (offset + bytes.length)

/-- The substitutions applied to a copy of the body in list order; the first that cannot supply its bytes
fails them all (R104). -/
def State.substitute (s : State) (trigger : Frame) : List Substitution → List Byte → Option (List Byte)
  | [], body => some body
  | sub :: rest, body =>
    match s.supply trigger sub.source with
    | none => none
    | some bytes => s.substitute trigger rest (overwrite body sub.target bytes)

/-- A composition request: an answer queued, or the reason why none is sent counted (R104). -/
def State.compose (s : State) (trigger : Frame) (t : Fin 16) : State :=
  let a := s.answers
  match a.templates.getD t.val none with
  | none => s.setAnswers { a with undefinedTemplate := a.undefinedTemplate + 1 }
  | some tpl =>
    match s.substitute trigger tpl.substitutions tpl.body with
    | none => s.setAnswers { a with shortTrigger := a.shortTrigger + 1 }
    | some body =>
      if Config.answerCap ≤ a.queue.length then s.setAnswers { a with queueFull := a.queueFull + 1 }
      else s.setAnswers { a with queue := a.queue ++ [closed body] }

/-! ## Matching (R27 to R33) -/

/-- The destination class of a frame, against the station address (R27). -/
def destClass (address : Option Mac) (f : Frame) : DestClass :=
  let d := macAt f 0
  if d = BitVec.allOnes 48 then .broadcast
  else if groupBit d then .group
  else if address = some d then .toStation
  else .unicastOther

/-- Whether a guard admits a destination class (R28). -/
def Guard.accepts : Guard → DestClass → Bool
  | .any, _ => true
  | .broadcast, .broadcast => true
  | .group, .group => true
  | .toStation, .toStation => true
  | .unicastOther, .unicastOther => true
  | _, _ => false

/-- The bytes a mask selects out of a window, in ascending order of offset (R29). -/
def selectBytes : List Bool → List Byte → List Byte
  | m :: mask, b :: bytes => if m then b :: selectBytes mask bytes else selectBytes mask bytes
  | _, _ => []

/-- The selected bytes of a frame (R29). -/
def RuleRecord.selected (r : RuleRecord) (f : Frame) : List Byte := selectBytes r.mask (f.drop r.windowOffset)

/-- The window fits within the frame (R29). -/
def RuleRecord.windowFits (r : RuleRecord) (f : Frame) : Bool :=
  decide (r.windowOffset + r.mask.length ≤ f.length)

/-- The test of a rule on the selected bytes (R31, R32). -/
def RuleTest.succeeds : RuleTest → List Byte → Bool
  | .signature e, bytes => signatureOf bytes == e
  | .exactly l, bytes => bytes == l

/-- A rule matches a frame (R33). -/
def RuleRecord.matchesFrame (r : RuleRecord) (sets : BitVec 4) (dest : DestClass) (f : Frame) : Bool :=
  (r.sets &&& sets) != 0 && r.guard.accepts dest &&
    (r.minLength == 0 || decide (r.minLength ≤ f.length)) && r.windowFits f && r.test.succeeds (r.selected f)

/-- The first entry that matches, from index `i` on, with its record (R35). -/
def findRule (sets : BitVec 4) (dest : DestClass) (f : Frame) : Nat → List ActiveEntry → Option (Nat × RuleRecord)
  | _, [] => none
  | i, e :: rest =>
    match e.record with
    | none => findRule sets dest f (i + 1) rest
    | some r => if r.matchesFrame sets dest f then some (i, r) else findRule sets dest f (i + 1) rest

/-- The entry with its match count advanced (R35). -/
def ActiveEntry.bump (e : ActiveEntry) : ActiveEntry := { e with count := e.count + 1 }

/-- The classifier with the match count of an entry advanced (R35). -/
def Classifier.countMatch (c : Classifier) (i : Nat) : Classifier := { c with active := c.active.modify i .bump }

/-! ## The classification event (R34 to R38) -/

/-- The disposition of the matching rule carried out (R36). -/
def State.dispose (s : State) (i : Nat) (d : Disposition) (f : Frame) : State :=
  match d with
  | .discard => s
  | .hold c => s.offerFrame (.ofIndex c) (.rule i) f
  | .answer t => s.compose f t
  | .answerHold t c => (s.compose f t).offerFrame (.ofIndex c) (.rule i) f

/-- The default disposition of the active profile carried out (R38). -/
def State.disposeByDefault (s : State) (f : Frame) : State :=
  let r := s.rules
  match s.activeProfile.defaultDisposition with
  | .discard => s.setRules { r with unmatchedDiscarded := r.unmatchedDiscarded + 1 }
  | .hold c => (s.setRules { r with unmatchedHeld := r.unmatchedHeld + 1 }).offerFrame (.ofIndex c) .byDefault f

/-- A classification event: the first match is counted, its disposition is carried out, and its wake decision is
the last stage; without a match the default disposition is carried out (R35 to R38). -/
def State.classify (s : State) (f : Frame) : State :=
  match findRule s.activeProfile.sets (destClass s.ctx.address f) f 0 s.rules.active with
  | none => s.disposeByDefault f
  | some (i, r) =>
    let s := (s.setRules (s.rules.countMatch i)).dispose i r.disposition f
    if r.wake then s.wakeDecision .ruleWake else s

/-! ## The path of traffic (R3, R115, R116) -/

/-- A line frame put to L→S transit (R115). -/
def State.joinToStation (s : State) (f : Frame) : State :=
  if !s.station.linkUp then s.countLinkDown .station 1
  else if Config.transitCap ≤ s.transit.toStation.length then s.countTransitDrop .station
  else s.setTransit { s.transit with toStation := s.transit.toStation ++ [f] }

/-- A station frame put to S→L transit (R116). -/
def State.joinToLine (s : State) (f : Frame) : State :=
  if !s.line.linkUp then s.countLinkDown .line 1
  else if Config.transitCap ≤ s.transit.toLine.length then s.countTransitDrop .line
  else s.setTransit { s.transit with toLine := s.transit.toLine ++ [f] }

/-- The path of traffic from the line, by the station state (R3, R79). -/
def State.lineTraffic (s : State) (f : Frame) : State :=
  match s.ctx.station with
  | .awake => s.joinToStation f
  | .releasing => s.offerFrame .b .backlog f
  | .dozing | .asleep | .waking | .unresponsive => s.classify f

end Sys2Proof.Machine
end

