-- ==== Sys2Proof/Machine/Owners.lean ====
section
/-! DEFINITION. What the owning blocks do for each command, after the control responder has judged its header: the
command's own checks in the order of R148, its effect, and the body of its response (R148 to R166). -/

namespace Sys2Proof.Machine

/-- What the owning block answers: the state it leaves, the status, and the response body. -/
structure Own where
  state : State
  status : Status
  body : List Byte
deriving DecidableEq, Repr

/-- A refusal, which leaves the state as it was and has no body (R128, R148). -/
def Own.refuse (s : State) (status : Status) : Own := { state := s, status := status, body := [] }

/-- An OK answer. -/
def Own.ok (s : State) (body : List Byte) : Own := { state := s, status := .ok, body := body }

/-! ## Identity and status (R149, R151) -/

/-- The identity body (R146, R149). -/
def State.identityBody (s : State) : List Byte :=
  macBytes s.unitAddress ++ [0x02, 0x08, 1, byteOf Config.ruleEntries, byteOf Config.profiles,
    byteOf Config.templates, 5, byteOf Config.noticeCap] ++ nat16 Config.blocks ++ [byteOf Config.descriptors] ++
    match s.responder.binding with
    | none => [0] ++ macBytes 0
    | some b => [1] ++ macBytes b.manager

def ownIdentify (s : State) : Own := .ok s s.identityBody

/-- The lease remaining as STATUS shows it (R146). -/
def State.leaseRemaining (s : State) : Nat :=
  match s.responder.binding with
  | none => 0
  | some b => b.remaining

/-- The used blocks and held frames of a class in STATUS (R146). -/
def Account.gauges (a : Account) : List Byte := nat16 a.used ++ [byteOf a.held]

/-- The status body of 60 bytes (R146, R151). -/
def State.statusBody (s : State) : List Byte :=
  [s.ctx.station.code, s.ctx.active.code, boolByte s.ctx.address.isSome] ++ macBytes (s.ctx.address.getD 0) ++
    [boolByte s.ctx.wakePending, byteOf s.wake.attempt, byteOf s.heldCount] ++ nat16 s.hold.freeBlocks ++
    [byteOf (Config.descriptors - s.heldCount), 0] ++
    HoldClass.all.flatMap (fun c => (s.hold.accounts.get c).gauges) ++ [0] ++
    be32 (BitVec.ofNat 32 s.leaseRemaining) ++ be32 s.time ++ [byteOf s.notices.queue.length, 0] ++
    be16 s.notices.lost ++
    be32 s.responder.lineMalformed ++ be32 s.responder.lineOverrun ++
    be32 s.responder.stationMalformed ++ be32 s.responder.stationOverrun

def ownStatus (s : State) : Own := .ok s s.statusBody

/-! ## Rules (R41 to R43, R152, R153) -/

/-- The agreement of a RULE_STAGE's length with its record's expected list, under RECORD (R131). -/
def ruleLength (plen : Nat) (r : List Byte) : Status :=
  if plen < 25 then .badLength
  else if 16 < natAt r 22 1 ∨ (byteAt r 7 = 0 ∧ natAt r 22 1 ≠ 0) then .badValue
  else if plen ≠ 25 + natAt r 22 1 then .badLength
  else .ok

/-- The staged entry set, and the response of RULE_STAGE (R41, R152). -/
def State.stage (s : State) (index : Byte) (e : StagedEntry) : Own :=
  .ok (s.setRules { s.rules with staged := s.rules.staged.set index.toNat e }) [index, e.code]

def ownRuleStage (params : List Byte) (s : State) : Own :=
  let index := byteAt params 0
  let action := byteAt params 1
  let r := params.drop 2
  if 32 ≤ index.toNat then .refuse s .badIndex
  else if 2 < action.toNat then .refuse s .badValue
  else if action ≠ 0 then
    if params.length ≠ 2 then .refuse s .badLength
    else s.stage index (if action = 1 then .stagedEmpty else .noChange)
  else if ruleLength params.length r ≠ .ok then .refuse s (ruleLength params.length r)
  else
    match RuleRecord.read r with
    | none => .refuse s .badValue
    | some rec => s.stage index (.stagedRecord rec)

/-- A staged entry that a commit would apply or a discard would withdraw (R42, R43). -/
def StagedEntry.isStaged : StagedEntry → Bool
  | .noChange => false
  | .stagedRecord _ | .stagedEmpty => true

/-- The number of staged entries (R42, R43). -/
def stagedCount (staged : List StagedEntry) : Nat := (staged.filter StagedEntry.isStaged).length

/-- The staged table with every entry NO_CHANGE. -/
def unstaged (staged : List StagedEntry) : List StagedEntry := staged.map fun _ => .noChange

def ownRuleDiscard (s : State) : Own :=
  .ok (s.setRules { s.rules with staged := unstaged s.rules.staged }) [byteOf (stagedCount s.rules.staged)]

/-- An active entry after a commit of a staged one (R43). -/
def ActiveEntry.commit (e : ActiveEntry) : StagedEntry → ActiveEntry
  | .noChange => e
  | .stagedRecord r => { record := some r, count := 0 }
  | .stagedEmpty => ActiveEntry.empty

/-- The active table after a commit of the staged table (R43). -/
def commitTable : List ActiveEntry → List StagedEntry → List ActiveEntry
  | e :: es, x :: xs => e.commit x :: commitTable es xs
  | es, [] => es
  | [], _ => []

/-- The classifier after a commit: one event for both tables (R43). -/
def Classifier.commit (c : Classifier) : Classifier :=
  { c with active := commitTable c.active c.staged, staged := unstaged c.staged }

def ownRuleCommit (s : State) : Own :=
  .ok (s.setRules s.rules.commit) [byteOf (stagedCount s.rules.staged)]

/-- The record in a staged entry. -/
def StagedEntry.record? : StagedEntry → Option RuleRecord
  | .stagedRecord r => some r
  | .noChange | .stagedEmpty => none

/-- The bytes of a rule record that may be absent. -/
def recordBytes (r : Option RuleRecord) : List Byte := r.elim [] RuleRecord.bytes

def ownRuleRead (params : List Byte) (s : State) : Own :=
  let table := byteAt params 0
  let index := byteAt params 1
  if 32 ≤ index.toNat then .refuse s .badIndex
  else if 1 < table.toNat then .refuse s .badValue
  else if table = 0 then
    let e := s.rules.active.getD index.toNat .empty
    .ok s ([table, index, boolByte e.record.isSome] ++ be32 e.count ++ recordBytes e.record)
  else
    let e := s.rules.staged.getD index.toNat .noChange
    .ok s ([table, index, e.code] ++ be32 0 ++ recordBytes e.record?)

/-! ## Profiles (R9, R154, R155) -/

/-- The state with a profile record replaced. -/
def State.setProfile (s : State) (i : Nat) (p : Option Profile) : State :=
  s.setCtx { s.ctx with profiles := s.ctx.profiles.set i p }

/-- A profile record is the active one (R9). -/
def ActiveProfile.isRecord (a : ActiveProfile) (i : Nat) : Bool :=
  match a with
  | .record j => j.val == i
  | .none | .builtIn => false

/-- A record undefined: refused outside AWAKE for the active record, which in AWAKE becomes none (R9). -/
def State.undefineProfile (s : State) (i : Nat) : Own :=
  if s.ctx.active.isRecord i then
    if s.ctx.station = .awake then
      .ok (s.setCtx { s.ctx with profiles := s.ctx.profiles.set i none, active := .none }) []
    else .refuse s .wrongState
  else .ok (s.setProfile i none) []

def ownProfileWrite (params : List Byte) (s : State) : Own :=
  let index := byteAt params 0
  let r := params.drop 1
  if 4 ≤ index.toNat then .refuse s .badIndex
  else if 1 < (byteAt r 0).toNat then .refuse s .badValue
  else if byteAt r 0 = 0 then s.undefineProfile index.toNat
  else
    match Profile.read r with
    | none => .refuse s .badValue
    | some p => .ok (s.setProfile index.toNat (some p)) []

def ownProfileRead (params : List Byte) (s : State) : Own :=
  let index := byteAt params 0
  if 4 ≤ index.toNat then .refuse s .badIndex
  else .ok s ([index] ++ profileBytes (s.ctx.profiles.getD index.toNat none))

/-! ## Templates (R102, R103, R131, R156) -/

/-- The agreement of a TEMPLATE_WRITE's length with its counts, under DEFINE (R131). -/
def templateLength (plen : Nat) (r : List Byte) : Status :=
  if plen < 65 then .badLength
  else if 4 < natAt r 2 1 ∨ natAt r 0 2 < 60 ∨ 256 < natAt r 0 2 then .badValue
  else if plen ≠ 5 + 6 * natAt r 2 1 + natAt r 0 2 then .badLength
  else .ok

/-- The state with a template entry replaced whole (R102). -/
def State.setTemplate (s : State) (i : Nat) (t : Option Template) : State :=
  s.setAnswers { s.answers with templates := s.answers.templates.set i t }

def ownTemplateWrite (params : List Byte) (s : State) : Own :=
  let index := byteAt params 0
  let action := byteAt params 1
  let r := params.drop 2
  if 16 ≤ index.toNat then .refuse s .badIndex
  else if 1 < action.toNat then .refuse s .badValue
  else if action = 1 then
    if params.length ≠ 2 then .refuse s .badLength else .ok (s.setTemplate index.toNat none) []
  else if templateLength params.length r ≠ .ok then .refuse s (templateLength params.length r)
  else
    match Template.read r with
    | none => .refuse s .badValue
    | some t => .ok (s.setTemplate index.toNat (some t)) []

def ownTemplateRead (params : List Byte) (s : State) : Own :=
  let index := byteAt params 0
  if 16 ≤ index.toNat then .refuse s .badIndex
  else
    match s.answers.templates.getD index.toNat none with
    | none => .ok s [index, 0]
    | some t => .ok s ([index, 1] ++ t.bytes)

/-! ## Classes and the hold store (R65 to R70, R157 to R159) -/

/-- A class's configuration replaced, with the expiries of R68 in the same event. -/
def HoldStore.writeClass (h : HoldStore) (c : HoldClass) (k : ClassConfig) (now : Word32) : HoldStore :=
  let h := { h with configs := h.configs.set c k }
  h.remove (fun d => d.cls == c && d.expires h.configs now) .expired

def ownClassWrite (params : List Byte) (s : State) : Own :=
  let cls := byteAt params 0
  match HoldClass.ofCode cls with
  | none => .refuse s .badIndex
  | some .b => .refuse s .badIndex
  | some c =>
    match ClassConfig.read (natAt params 1 2) (natAt params 3 2) (byteAt params 5) with
    | none => .refuse s .badValue
    | some k => .ok (s.setHold (s.hold.writeClass c k s.time)) []

def ownClassRead (params : List Byte) (s : State) : Own :=
  let cls := byteAt params 0
  match HoldClass.ofCode cls with
  | none => .refuse s .badIndex
  | some c => .ok s ([cls] ++ (s.hold.configs.get c).bytes ++ (s.hold.accounts.get c).bytes)

/-- A hold summary of 12 bytes (R146, R158). -/
def Descriptor.summary (d : Descriptor) (now : Word32) : List Byte :=
  be16 d.serial ++ [d.cls.code, d.state.code, d.origin.code, 0] ++ nat16 d.frame.length ++ be32 (d.age now)

/-- The descriptors from the first one that lies at least as far beyond the head as `serial` (R158). -/
def listFrom (serial : Word16) : List Descriptor → List Descriptor
  | [] => []
  | h :: rest =>
    if 32768 ≤ serialFrom h.serial serial then h :: rest
    else (h :: rest).dropWhile fun d => decide (serialFrom h.serial d.serial < serialFrom h.serial serial)

def ownHoldList (params : List Byte) (s : State) : Own :=
  let start := byteAt params 0
  if 1 < start.toNat then .refuse s .badValue
  else
    let found := if start = 0 then s.hold.list else listFrom (word16At params 1) s.hold.list
    let shown := found.take 24
    .ok s ([byteOf shown.length] ++ nat16 (found.length - shown.length) ++
      shown.flatMap fun d => d.summary s.time)

/-- A descriptor selected by UP_TO a serial, judged against the head (R66). -/
def upTo (serial : Word16) (list : List Descriptor) (d : Descriptor) : Bool :=
  match list with
  | [] => false
  | h :: _ =>
    decide (serialFrom h.serial serial ≤ 32767) &&
      decide (serialFrom h.serial d.serial ≤ serialFrom h.serial serial)

/-- The removal of every selected HELD descriptor, and the response of HOLD_PURGE (R65). -/
def State.purge (s : State) (sel : Descriptor → Bool) : Own :=
  let held := fun d => d.isHeld && sel d
  .ok (s.setHold (s.hold.remove held .purged)) [byteOf (s.hold.list.filter held).length]

def ownHoldPurge (params : List Byte) (s : State) : Own :=
  let selection := byteAt params 0
  if 2 < selection.toNat then .refuse s .badValue
  else if selection = 0 then s.purge fun _ => true
  else if selection = 1 then
    match HoldClass.ofCode (byteAt params 1) with
    | none => .refuse s .badIndex
    | some c => s.purge fun d => d.cls == c
  else s.purge (upTo (word16At params 2) s.hold.list)

/-! ## Wake and notices (R160, R161, R172) -/

/-- WAKE: the manager's wake decision, refused with the station state in AWAKE, WAKING and RELEASING (R160). -/
def ownWake (s : State) : Own :=
  match s.ctx.station with
  | .awake | .waking | .releasing => { state := s, status := .wrongState, body := [s.ctx.station.code] }
  | .dozing | .asleep | .unresponsive =>
    let t := s.wakeDecision .managerWake
    .ok t [t.ctx.station.code]

def ownNoticeAck (params : List Byte) (s : State) : Own :=
  let u := s.notices
  match u.queue with
  | [] => .refuse s .stale
  | n :: rest =>
    if n.serial = word16At params 0 ∧ 1 ≤ n.transmissions then
      .ok (s.setNotices { u with queue := rest, timer := .stopped }) [byteOf rest.length]
    else .refuse s .stale

def ownNoticeMask (params : List Byte) (s : State) : Own :=
  let mask := byteAt params 0
  if 16 ≤ mask.toNat then .refuse s .badValue
  else .ok (s.setNotices { s.notices with mask := mask.setWidth 4 }) [mask]

/-! ## Counters (R146, R162) -/

/-- The six counters of a port in the order of R146. -/
def PortCounters.values (c : PortCounters) : List Word32 :=
  [c.received, c.intakeErrors, c.controlConsumed, c.transmitted, c.transitDrops, c.linkDownDiscards]

/-- The counters of the PORTS group. -/
def State.portsGroup (s : State) : List Word32 :=
  s.line.counters.values ++ s.station.counters.values ++ [s.station.releaseCut]

/-- The counters of the RULES group. -/
def State.rulesGroup (s : State) : List Word32 :=
  s.rules.active.map ActiveEntry.count ++ [s.rules.unmatchedHeld, s.rules.unmatchedDiscarded]

/-- The counters of the CLASSES group. -/
def State.classesGroup (s : State) : List Word32 :=
  HoldClass.all.flatMap fun c => (s.hold.accounts.get c).counters

/-- The counters of the ANSWERS group. -/
def State.answersGroup (s : State) : List Word32 :=
  [s.answers.sent, s.answers.queueFull, s.answers.shortTrigger, s.answers.undefinedTemplate]

/-- The PORTS group cleared (R124). -/
def State.clearPorts (s : State) : State :=
  (s.setLine { s.line with counters := PortCounters.zero }).setStation
    { s.station with counters := PortCounters.zero, releaseCut := 0 }

/-- The RULES group cleared (R39). -/
def State.clearRules (s : State) : State :=
  s.setRules
    { s.rules with
      active := s.rules.active.map fun e => { e with count := 0 }
      unmatchedHeld := 0
      unmatchedDiscarded := 0 }

/-- The ANSWERS group cleared (R110). -/
def State.clearAnswers (s : State) : State :=
  s.setAnswers { s.answers with sent := 0, queueFull := 0, shortTrigger := 0, undefinedTemplate := 0 }

/-- The body of COUNTERS_READ (R146). -/
def groupBody (group : Byte) (counters : List Word32) : List Byte :=
  [group, byteOf counters.length] ++ counters.flatMap be32

def ownCountersRead (params : List Byte) (s : State) : Own :=
  let group := byteAt params 0
  let clear := byteAt params 1
  if 3 < group.toNat ∨ 1 < clear.toNat ∨ (group = 2 ∧ clear = 1) then .refuse s .badValue
  else if group = 0 then .ok (if clear = 1 then s.clearPorts else s) (groupBody group s.portsGroup)
  else if group = 1 then .ok (if clear = 1 then s.clearRules else s) (groupBody group s.rulesGroup)
  else if group = 2 then .ok s (groupBody group s.classesGroup)
  else .ok (if clear = 1 then s.clearAnswers else s) (groupBody group s.answersGroup)

/-! ## RESET (R141, R163) -/

def ownReset (params : List Byte) (s : State) : Own :=
  let strength := byteAt params 0
  if strength = 0 then .ok (s.setResponder { s.responder with resetPending := some .warm }) []
  else if strength = 1 then .ok (s.setResponder { s.responder with resetPending := some .cold }) []
  else .refuse s .badValue

/-! ## The station's commands (R11 to R15, R18, R164 to R166) -/

/-- The station state entered by a Doze, out of the state it finds (R12 to R15). The profile and the address have
been taken. -/
def State.dozeMove (s : State) : State :=
  match s.ctx.station with
  | .awake => s.changeState (if s.transit.toStation.isEmpty then .asleep else .dozing) .doze
  | .releasing => (s.setReleaseTimer .stopped).changeState (if s.drained then .asleep else .dozing) .doze
  | .dozing | .asleep => s
  | .waking | .unresponsive => s.endSequence.changeState .asleep .doze

/-- The body of the responses to DOZE and RESUME: the state entered and the held count (R130). -/
def State.stationBody (s : State) : List Byte := [s.ctx.station.code, byteOf s.heldCount]

def ownDoze (source : Mac) (params : List Byte) (s : State) : Own :=
  match readFin 4 (byteAt params 0) with
  | none => .refuse s .badIndex
  | some i =>
    if (s.ctx.profiles.getD i.val none).isNone then .refuse s .profileUndefined
    else
      let t := (s.setCtx { s.ctx with address := some source, active := .record i }).dozeMove
      .ok t t.stationBody

/-- The end of a sleep by a Resume: into AWAKE with nothing held, else into RELEASING with the delay timer
started (R18, R74). With a delay of 0 ms and no L→S transit the head's delivery begins within the Resume's event (R76),
also where the head is the last frame held and its expiry falls together with the Resume: it is then DELIVERING and does
not expire. R64 says of that pair that the frame is counted as expired in either order; that the model follows R76 there
is its choice (DESIGN CHOICE, log entry 24). -/
def State.endSleep (s : State) : State :=
  let s := s.endSequence
  let s := s.setCtx { s.ctx with wakePending := false }
  if s.hold.list.isEmpty then s.changeState .awake .resume
  else (s.setReleaseTimer (.start s.activeProfile.releaseDelay)).changeState .releasing .resume

def ownResume (s : State) : Own :=
  let t := if s.ctx.station.away then s.endSleep else s
  .ok t t.stationBody

def ownStationQuery (s : State) : Own :=
  .ok s (s.stationBody ++ HoldClass.all.map fun c => byteOf (s.hold.accounts.get c).held)

end Sys2Proof.Machine
end

