-- ==== Sys2Proof/Machine/Responder.lean ====
section
/-! DEFINITION. The control responder and the receivers of the two ports: the tests of R127, the order of checks of
R129, the binding, the sequence and the replay (R126 to R142), and the intake of a frame (R112, R114). -/

namespace Sys2Proof.Machine

/-! ## Responses -/

/-- The response to a control frame: its code, sequence and tag, from the unit address to its source (R126). -/
def Ctl.response (c : Ctl) (unit : Mac) (status : Status) (body : List Byte) : CtlFrame :=
  { dst := c.source, src := unit, kind := 2, code := c.code, status := status.code, seq := c.seq, tag := c.tag,
    body := body }

/-- A frame placed at the tail of a port's control queue (R127). -/
def State.place (s : State) (p : Port) (f : CtlFrame) : State :=
  match p with
  | .line => s.setLine { s.line with control := s.line.control ++ [f] }
  | .station => s.setStation { s.station with control := s.station.control ++ [f] }

/-- The response to a control frame, placed on its arrival port. -/
def State.answer (s : State) (c : Ctl) (status : Status) (body : List Byte) : State :=
  s.place c.port (c.response s.unitAddress status body)

/-! ## The binding (R132 to R135) -/

/-- The binding record set. -/
def State.setBinding (s : State) (b : Option Binding) : State :=
  s.setResponder { s.responder with binding := b }

/-- The notice unit at the end of a binding: the timer stops, the head's count returns to 0 (R173). -/
def NoticeUnit.unbound (u : NoticeUnit) : NoticeUnit :=
  { u with
    timer := .stopped
    queue := match u.queue with
      | [] => []
      | n :: rest => { n with transmissions := 0 } :: rest }

/-- The binding ends, and the notice unit is told (R132, R173). -/
def State.endBinding (s : State) : State := (s.setBinding none).setNotices s.notices.unbound

/-- The lease that a BIND grants, `none` when out of range (R133). -/
def leaseGranted (lease : Nat) : Option Nat :=
  if lease = 0 then some 60 else if 5 ≤ lease ∧ lease ≤ 600 then some lease else none

/-- A BIND that has passed checks 1 to 4. The binding of another manager is judged before the lease's value
(R133; log entry 8). -/
def State.judgeBind (s : State) (c : Ctl) : State :=
  let taken := fun lease =>
    let r := c.response s.unitAddress .ok (nat16 lease)
    (s.place c.port r).setBinding
      (some { manager := c.source, lease := lease, remaining := lease * 1000, lastSeq := c.seq, cached := r })
  let judged :=
    match leaseGranted (natAt c.params 0 2) with
    | none => s.answer c .badValue []
    | some lease => taken lease
  match s.responder.binding with
  | none => judged
  | some b =>
    if b.manager = c.source then judged
    else s.answer c .boundElsewhere (be32 (BitVec.ofNat 32 b.remaining))

/-! ## Execution (R137, R138) -/

/-- The owning block's answer to a bound-only command. -/
def Cmd.own (k : Cmd) (c : Ctl) (s : State) : Own :=
  match k with
  | .identify => ownIdentify s
  | .bind => .refuse s .badCode
  | .unbind => .ok s []
  | .status => ownStatus s
  | .ruleStage => ownRuleStage c.params s
  | .ruleDiscard => ownRuleDiscard s
  | .ruleCommit => ownRuleCommit s
  | .ruleRead => ownRuleRead c.params s
  | .profileWrite => ownProfileWrite c.params s
  | .profileRead => ownProfileRead c.params s
  | .templateWrite => ownTemplateWrite c.params s
  | .templateRead => ownTemplateRead c.params s
  | .classWrite => ownClassWrite c.params s
  | .classRead => ownClassRead c.params s
  | .holdList => ownHoldList c.params s
  | .holdPurge => ownHoldPurge c.params s
  | .wake => ownWake s
  | .noticeAck => ownNoticeAck c.params s
  | .noticeMask => ownNoticeMask c.params s
  | .countersRead => ownCountersRead c.params s
  | .reset => ownReset c.params s
  | .doze => ownDoze c.source c.params s
  | .resume => ownResume s
  | .stationQuery => ownStationQuery s

/-- A bound-only command executed under a binding: the owning block acts, the response is placed and cached, the
sequence is accepted and the lease renewed; an UNBIND ends the binding instead (R135, R137, R138). -/
def State.execute (s : State) (k : Cmd) (c : Ctl) (b : Binding) : State :=
  let o := k.own c s
  let r := c.response s.unitAddress o.status o.body
  let t := o.state.place c.port r
  if k = .unbind then t.endBinding
  else t.setBinding (some { b with lastSeq := c.seq, cached := r, remaining := b.lease * 1000 })

/-- The cached response replayed with kind 4, and the lease renewed (R139). -/
def State.replay (s : State) (c : Ctl) (b : Binding) : State :=
  (s.place c.port { b.cached with kind := 4 }).setBinding (some { b with remaining := b.lease * 1000 })

/-- Checks 5 to 7 of a bound-only command (R129, R137). -/
def State.judgeBound (s : State) (k : Cmd) (c : Ctl) : State :=
  match s.responder.binding with
  | none => s.answer c .notBound []
  | some b =>
    if b.manager ≠ c.source then s.answer c .boundElsewhere (be32 (BitVec.ofNat 32 b.remaining))
    else if c.seq = b.lastSeq + 1 then s.execute k c b
    else if c.seq = b.lastSeq then s.replay c b
    else s.answer c .outOfSequence (be16 (b.lastSeq + 1))

/-- A command without a session: IDENTIFY and the station's commands (R142). -/
def State.judgeFree (s : State) (k : Cmd) (c : Ctl) : State :=
  let o := k.own c s
  o.state.answer c o.status o.body

/-- The parameters lie within the frame (R129, check 2). -/
def Ctl.fits (c : Ctl) : Bool := decide (c.plen ≤ Config.maxParams) && decide (24 + c.plen ≤ c.frameLength - 4)

/-- Checks 3 (kind) to 7 of a frame whose code is a command's (R129). -/
def State.judgeCommand (s : State) (k : Cmd) (c : Ctl) : State :=
  if c.kind ≠ 1 then s.answer c .badCode []
  else if !k.permitted c.port then s.answer c .notPermitted []
  else if k.boundOnly then s.judgeBound k c
  else if k = .bind then s.judgeBind c
  else s.judgeFree k c

/-- The checks of R129, in order. -/
def State.judge (s : State) (c : Ctl) : State :=
  if c.version ≠ 1 then s.answer c .badVersion []
  else
    match Cmd.ofCode c.code with
    | none => if c.fits then s.answer c .badCode [] else s.answer c .badLength []
    | some k => if c.fits && k.lengthOk c.plen then s.judgeCommand k c else s.answer c .badLength []

/-- The tests of R127: a pending reset, a group source, a full control queue; then the judging. -/
def State.respond (s : State) (c : Ctl) : State :=
  if s.responder.resetPending.isSome then s.countOverrun c.port
  else if groupBit c.source then s.countMalformed c.port
  else if controlCap c.port ≤ (s.controlQueue c.port).length then s.countOverrun c.port
  else s.judge c

/-! ## Reception (R112, R114) -/

/-- The frame being received at a port (R112). -/
def State.setRx (s : State) (p : Port) (rx : Option Frame) : State :=
  match p with
  | .line => s.setLine { s.line with rx := rx }
  | .station => s.setStation { s.station with rx := rx }

/-- A control frame addressed to the part (R114). -/
def State.isControl (s : State) (f : Frame) : Bool :=
  word16At f 12 == Config.controlType && (macAt f 0 == s.unitAddress || macAt f 0 == Config.groupAddress)

/-- A control frame that has passed intake: counted, and handed to the control responder (R112, R114). -/
def State.consume (s : State) (c : Ctl) : State := ((s.countReceived c.port).countConsumed c.port).respond c

/-- Traffic by the port it arrived on (R114). -/
def State.traffic (s : State) (p : Port) (f : Frame) : State :=
  match p with
  | .line => s.lineTraffic f
  | .station => s.joinToLine f

/-- A reception completes at a port: intake, then control or traffic (R112, R114). -/
def State.intake (s : State) (p : Port) (f : Frame) : State :=
  let s := s.setRx p none
  if !intakeOk f then s.countIntakeError p
  else if s.isControl f then s.consume (Ctl.ofFrame p f)
  else (s.countReceived p).traffic p f

/-- A frame arrives at a port whose link is UP, with what the part then does of its own accord; while the link is
DOWN nothing is received (R121, R122; log entry 4). -/
def State.receive (s : State) (p : Port) (f : Frame) : State :=
  if s.linkUp p then (s.intake p f).settle else s

/-- A command of the table arrives: the well-formed control frame that carries it passes intake and is consumed
(log entry 6). Parameters longer than a frame can carry make an intake error (R112). -/
def State.command (s : State) (h : CmdHeader) (k : Cmd) (params : List Byte) : State :=
  if s.linkUp h.port then
    let s := s.setRx h.port none
    (if ctlFrameLength params.length ≤ Config.maxFrame then s.consume (Ctl.ofCommand h k params)
      else s.countIntakeError h.port).settle
  else s

end Sys2Proof.Machine
end

