-- ==== Sys2Proof/Machine/Commands.lean ====
section
/-! DEFINITION. The meanings of the management commands: each is the arrival, at its header's port, of the
well-formed control frame that carries it (R126, R130; log entry 6). -/

namespace Sys2Proof.Machine

/-- IDENTIFY: the identity body, on either port; nothing else changes (R149). -/
def execIdentify (h : CmdHeader) (s : State) : Host.Outcome State Fault Refusal :=
  s.event fun s => s.command h .identify []

/-- BIND: forms or remakes the binding, or is refused (R133, R150). -/
def execBind (h : CmdHeader) (lease : Word16) (s : State) : Host.Outcome State Fault Refusal :=
  s.event fun s => s.command h .bind (be16 lease)

/-- UNBIND: its response is placed, then the binding ends (R135). -/
def execUnbind (h : CmdHeader) (s : State) : Host.Outcome State Fault Refusal :=
  s.event fun s => s.command h .unbind []

/-- STATUS: the status body, taken at one event (R151). -/
def execStatus (h : CmdHeader) (s : State) : Host.Outcome State Fault Refusal :=
  s.event fun s => s.command h .status []

/-- RULE_STAGE: one staged entry set (R41, R131, R152). -/
def execRuleStage (h : CmdHeader) (index action : Byte) (record : List Byte) (s : State) : Host.Outcome State Fault Refusal :=
  s.event fun s => s.command h .ruleStage ([index, action] ++ record)

/-- RULE_DISCARD: every staged entry returns to NO_CHANGE (R42). -/
def execRuleDiscard (h : CmdHeader) (s : State) : Host.Outcome State Fault Refusal :=
  s.event fun s => s.command h .ruleDiscard []

/-- RULE_COMMIT: the staged table is applied to the active table (R43). -/
def execRuleCommit (h : CmdHeader) (s : State) : Host.Outcome State Fault Refusal :=
  s.event fun s => s.command h .ruleCommit []

/-- RULE_READ: one active or staged entry (R153). -/
def execRuleRead (h : CmdHeader) (table index : Byte) (s : State) : Host.Outcome State Fault Refusal :=
  s.event fun s => s.command h .ruleRead [table, index]

/-- PROFILE_WRITE: a profile record defined or undefined (R154, R8, R9). -/
def execProfileWrite (h : CmdHeader) (index : Byte) (record : List Byte) (s : State) : Host.Outcome State Fault Refusal :=
  s.event fun s => s.command h .profileWrite (index :: record)

/-- PROFILE_READ: one profile record (R155). -/
def execProfileRead (h : CmdHeader) (index : Byte) (s : State) : Host.Outcome State Fault Refusal :=
  s.event fun s => s.command h .profileRead [index]

/-- TEMPLATE_WRITE: a template entry replaced whole (R102, R131, R156). -/
def execTemplateWrite (h : CmdHeader) (index action : Byte) (template : List Byte) (s : State) : Host.Outcome State Fault Refusal :=
  s.event fun s => s.command h .templateWrite ([index, action] ++ template)

/-- TEMPLATE_READ: one template entry (R103, R156). -/
def execTemplateRead (h : CmdHeader) (index : Byte) (s : State) : Host.Outcome State Fault Refusal :=
  s.event fun s => s.command h .templateRead [index]

/-- CLASS_WRITE: a class's configuration replaced, with the expiries of R68 (R67, R157). -/
def execClassWrite (h : CmdHeader) (cls : Byte) (quota lifetime : Word16) (policy : Byte) (s : State) : Host.Outcome State Fault Refusal :=
  s.event fun s => s.command h .classWrite ([cls] ++ be16 quota ++ be16 lifetime ++ [policy])

/-- CLASS_READ: a class's configuration and account (R157). -/
def execClassRead (h : CmdHeader) (cls : Byte) (s : State) : Host.Outcome State Fault Refusal :=
  s.event fun s => s.command h .classRead [cls]

/-- HOLD_LIST: up to 24 hold summaries (R158). -/
def execHoldList (h : CmdHeader) (start : Byte) (serial : Word16) (s : State) : Host.Outcome State Fault Refusal :=
  s.event fun s => s.command h .holdList ([start] ++ be16 serial)

/-- HOLD_PURGE: the selected HELD descriptors are removed (R65, R66, R159). -/
def execHoldPurge (h : CmdHeader) (selection cls : Byte) (serial : Word16) (s : State) : Host.Outcome State Fault Refusal :=
  s.event fun s => s.command h .holdPurge ([selection, cls] ++ be16 serial)

/-- WAKE: the manager's wake decision (R160, R88 to R92). -/
def execWake (h : CmdHeader) (s : State) : Host.Outcome State Fault Refusal :=
  s.event fun s => s.command h .wake []

/-- NOTICE_ACK: the transmitted head is removed if its serial matches (R161, R172). -/
def execNoticeAck (h : CmdHeader) (serial : Word16) (s : State) : Host.Outcome State Fault Refusal :=
  s.event fun s => s.command h .noticeAck (be16 serial)

/-- NOTICE_MASK: the mask for notices raised afterwards (R161). -/
def execNoticeMask (h : CmdHeader) (mask : Byte) (s : State) : Host.Outcome State Fault Refusal :=
  s.event fun s => s.command h .noticeMask [mask]

/-- COUNTERS_READ: a counter group, cleared where asked (R162). -/
def execCountersRead (h : CmdHeader) (group clear : Byte) (s : State) : Host.Outcome State Fault Refusal :=
  s.event fun s => s.command h .countersRead [group, clear]

/-- RESET: its response is placed and cached and the reset-pending condition set (R141, R163). -/
def execReset (h : CmdHeader) (strength : Byte) (s : State) : Host.Outcome State Fault Refusal :=
  s.event fun s => s.command h .reset [strength]

/-- DOZE: the station asks to sleep under a profile (R11 to R15, R164). -/
def execDoze (h : CmdHeader) (index : Byte) (s : State) : Host.Outcome State Fault Refusal :=
  s.event fun s => s.command h .doze [index]

/-- RESUME: the station has woken (R18, R165). -/
def execResume (h : CmdHeader) (s : State) : Host.Outcome State Fault Refusal :=
  s.event fun s => s.command h .resume []

/-- STATION_QUERY: the station state and the held counts (R166). -/
def execStationQuery (h : CmdHeader) (s : State) : Host.Outcome State Fault Refusal :=
  s.event fun s => s.command h .stationQuery []

end Sys2Proof.Machine
end

