-- ==== Sys2Proof/Machine/Frames.lean ====
section
/-! DEFINITION. The meanings of the frame events: receptions, the arbiters' choices, and the ends of transmissions
(R112, R117, R119). -/

namespace Sys2Proof.Machine

/-- LINE_FRAME_RECEIVED (R112, R3). -/
def execLineFrameReceived (frame : List Byte) (s : State) : Host.Outcome State Fault Refusal :=
  s.event fun s => s.receive .line frame

/-- STATION_FRAME_RECEIVED (R112, R116). -/
def execStationFrameReceived (frame : List Byte) (s : State) : Host.Outcome State Fault Refusal :=
  s.event fun s => s.receive .station frame

/-- LINE_TRANSMIT_START: the line egress arbiter's choice, where it has one to make (R117). -/
def execLineTransmitStart (s : State) : Host.Outcome State Fault Refusal :=
  s.event fun s => s.when s.lineChoiceDue fun s => s.lineChoice.settle

/-- STATION_TRANSMIT_START: the station egress arbiter's choice, where it has one to make (R119). -/
def execStationTransmitStart (s : State) : Host.Outcome State Fault Refusal :=
  s.event fun s => s.when s.stationChoiceDue fun s => s.stationChoice.settle

/-- The frame leaves the queue that the line transmitter sent it from; an answer is counted as sent (R107, R117). -/
def State.leaveLine (s : State) : LineSource → State
  | .control => s.setLine { s.line with control := s.line.control.tail }
  | .answer => s.setAnswers { s.answers with queue := s.answers.queue.tail, sent := s.answers.sent + 1 }
  | .transit => s.setTransit { s.transit with toLine := s.transit.toLine.tail }

/-- LINE_TRANSMIT_COMPLETE: the frame leaves its queue and is counted; a RESET response's completion makes the
reset take effect, and the arbiter chooses again (R117, R141). -/
def execLineTransmitComplete (s : State) : Host.Outcome State Fault Refusal :=
  s.event fun s =>
    match s.line.tx with
    | none => s
    | some src => (((s.endLineTx .completed).countTransmitted .line).leaveLine src).settle

/-- The frame leaves the source that the station transmitter sent it from; a released frame is a delivery
completion (R50, R78, R119). -/
def State.leaveStation (s : State) : StationSource → State
  | .control => s.setStation { s.station with control := s.station.control.tail }
  | .release => s.setHold (s.hold.removeFirst Descriptor.isDelivering .delivered)
  | .transit => s.setTransit { s.transit with toStation := s.transit.toStation.tail }

/-- STATION_TRANSMIT_COMPLETE: the frame leaves its source and is counted; the completion may end the drain, begin
the next delivery or end the release, and the arbiter chooses again (R119, R78, R16, R76, R19). -/
def execStationTransmitComplete (s : State) : Host.Outcome State Fault Refusal :=
  s.event fun s =>
    match s.station.tx with
    | none => s
    | some src => (((s.endStationTx .completed).countTransmitted .station).leaveStation src).settle

end Sys2Proof.Machine
end

