-- ==== Sys2Proof/Machine/Links.lean ====
section
/-! DEFINITION. The meanings of the link events of both ports (R20 to R23, R111, R121, R122, R174). -/

namespace Sys2Proof.Machine

/-- The reception in progress at a lost port: what had arrived with the event, or what State holds of it. -/
def State.receiving (s : State) (p : Port) (arriving : Option Frame) : Bool :=
  match p with
  | .line => arriving.isSome || s.line.rx.isSome
  | .station => arriving.isSome || s.station.rx.isSome

/-- A reception in progress is abandoned at a link loss and counted as an intake error (R112). -/
def State.abandon (s : State) (p : Port) (arriving : Option Frame) : State :=
  if s.receiving p arriving then (s.setRx p none).countIntakeError p else s

/-- The number of frames a line link loss discards (R121). -/
def State.lineBacklog (s : State) : Nat :=
  s.line.control.length + s.answers.queue.length + s.transit.toLine.length

/-- The line port's work at a link loss: the transmission ends, the queues are discarded and counted (R121). -/
def State.loseLine (s : State) : State :=
  let s := (s.countLinkDown .line s.lineBacklog).endLineTx .stoppedAtLoss
  let s := s.setLine { s.line with linkUp := false, control := [] }
  let s := s.setAnswers { s.answers with queue := [] }
  (s.setTransit { s.transit with toLine := [] }).setPins { s.pins with linkL := false }

/-- The notice of a line link event and its wake decision, where the state and the active profile call for one
(R23, R111, R174). -/
def State.lineLinkEvent (s : State) (up : Bool) : State :=
  let s := s.raise (.lineLink up)
  match s.ctx.station with
  | .dozing | .asleep | .unresponsive => if s.activeProfile.wakeOnLink then s.wakeDecision .linkWake else s
  | .awake | .waking | .releasing => s

/-- LINE_LINK_LOSS (R121): the port's work, a reset whose response was discarded (R141), then the notice and the
wake decision (R111). A link that is DOWN is not lost again (log entry 4). -/
def execLineLinkLoss (arriving : Option (List Byte)) (s : State) : Host.Outcome State Fault Refusal :=
  s.event fun s => s.when s.line.linkUp fun s =>
    ((s.abandon .line arriving).loseLine.settleReset.lineLinkEvent false).settle

/-- LINE_LINK_REGAIN (R121, R174). -/
def execLineLinkRegain (s : State) : Host.Outcome State Fault Refusal :=
  s.event fun s => s.when (!s.line.linkUp) fun s =>
    (((s.setLine { s.line with linkUp := true }).setPins { s.pins with linkL := true }).lineLinkEvent true).settle

/-- The store at a cut with return: the DELIVERING descriptor is HELD again, and expires at once if its age has
reached its class's lifetime (R51, R64). -/
def HoldStore.cutWithReturn (h : HoldStore) (now : Word32) : HoldStore :=
  match h.list.find? Descriptor.isDelivering with
  | none => h
  | some d =>
    let back := h.returnHeld
    if d.outlived (h.configs.get d.cls).lifetime now then
      back.removeFirst (fun x => x.serial == d.serial) .expired
    else back

/-- The station port's work at a link loss: the transmission ends, with the release cut it counts, the queues are
discarded and counted, and a DELIVERING frame returns to HELD (R122, R81). -/
def State.loseStation (s : State) : State :=
  let s := s.countLinkDown .station (s.station.control.length + s.transit.toStation.length)
  let s := s.countReleaseCut.endStationTx .stoppedAtLoss
  let s := s.setStation { s.station with linkUp := false, control := [] }
  let s := (s.setTransit { s.transit with toStation := [] }).setPins { s.pins with linkS := false }
  s.setHold (s.hold.cutWithReturn s.time)

/-- What station link loss does to the context, by the station state (R20, R21, R22). -/
def State.sleepAtLoss (s : State) : State :=
  match s.ctx.station with
  | .awake => (s.setCtx { s.ctx with active := s.ctx.fallback }).changeState .asleep .stationLinkDown
  | .releasing =>
    ((s.setReleaseTimer .stopped).setCtx { s.ctx with active := s.ctx.fallback }).changeState .asleep .stationLinkDown
  | .dozing =>
    if s.ctx.wakePending then (s.setCtx { s.ctx with wakePending := false }).enterWaking .stationLinkDown
    else s.changeState .asleep .stationLinkDown
  | .asleep | .waking | .unresponsive => s

/-- STATION_LINK_LOSS (R122, R20 to R22, R81). -/
def execStationLinkLoss (arriving : Option (List Byte)) (s : State) : Host.Outcome State Fault Refusal :=
  s.event fun s => s.when s.station.linkUp fun s =>
    (s.abandon .station arriving).loseStation.sleepAtLoss.settle

/-- STATION_LINK_REGAIN: no other change at the port, and none of the context (R122, R22). -/
def execStationLinkRegain (s : State) : Host.Outcome State Fault Refusal :=
  s.event fun s => s.when (!s.station.linkUp) fun s =>
    ((s.setStation { s.station with linkUp := true }).setPins { s.pins with linkS := true }).settle

end Sys2Proof.Machine
end

