-- ==== Sys2Proof/Machine/Resets.lean ====
section
/-! DEFINITION. The meanings of the resets: HARDWARE_RESET, RESETN_ASSERTED, RESET_TAKES_EFFECT. -/

namespace Sys2Proof.Machine

/-- HARDWARE_RESET: the straps are sampled, the link states are taken from the inputs without a link event, part
time restarts at 0, every block takes its hardware reset values, and RESETN is high (R176, R125). It is taken
with RESETN high too: power-on settles (R125; log entry 12). Commands that wait are kept (log entry 16). -/
def execHardwareReset (straps : BitVec 6) (linkL linkS : Bool) (s : State) : Host.Outcome State Fault Refusal :=
  .next
    { s.blocksReset linkL linkS with
      pins := { straps := straps, linkL := linkL, linkS := linkS, resetn := true }
      unitStraps := straps
      time := 0 }

/-- RESETN falls: a transmission in progress is cut, with the release cut it counts, a reception is abandoned, and
nothing else changes until the reset's event (R125, R123, R83; log entry 13). -/
def execResetnAsserted (s : State) : Host.Outcome State Fault Refusal :=
  s.event fun s =>
    let s := (s.countReleaseCut.endStationTx .cutBadFcs).endLineTx .cutBadFcs
    let s := (s.setRx .line none).setRx .station none
    s.setPins { s.pins with resetn := false }

/-- RESET_TAKES_EFFECT: a pending reset whose response has left the line control queue is carried out (R141). -/
def execResetTakesEffect (s : State) : Host.Outcome State Fault Refusal :=
  s.event fun s => s.when s.resetDue fun s => s.takeReset.settle

end Sys2Proof.Machine
end

