-- ==== Sys2Proof/Machine/Timers.lean ====
section
/-! DEFINITION. The meanings of the timer events, of the part's own steps, and the passing of one millisecond
(R16, R19, R63, R75, R76, R95 to R97, R134, R170, R171). An expiry takes effect only when its timer is due
(log entry 3); one of the part's own steps only when its conditions hold (log entry 4). -/

namespace Sys2Proof.Machine

/-- A timer is due: RUNNING with nothing remaining. -/
def Timer.due (t : Timer) : Bool := t == .running 0

/-- PULSE_TIMER_EXPIRY: the line is released, the attempt goes on (R95). -/
def execPulseTimerExpiry (s : State) : Host.Outcome State Fault Refusal :=
  s.event fun s => s.when s.wake.pulseTimer.due fun s =>
    (s.setWake { s.wake with line := .released, pulseTimer := .stopped }).settle

/-- The retries recorded in the attempt terms. -/
def WakeController.retries (w : WakeController) : Nat := w.terms.elim 0 WakeTerms.retries

/-- The end of an attempt: a rest, or the failure of the sequence with its two notices in order (R96). -/
def State.endAttempt (s : State) : State :=
  let w := { s.wake with line := .released, pulseTimer := .stopped }
  if s.wake.attempt < 1 + s.wake.retries then
    s.setWake { w with phase := .rest, attemptTimer := .running Config.restMs }
  else
    let s := s.setWake { w with phase := .idle, attemptTimer := .stopped, terms := none }
    (s.changeState .unresponsive .attemptsSpent).raise (.wakeFailed s.wake.attempt s.heldCount)

/-- ATTEMPT_TIMER_EXPIRY: the attempt timer expires in phase ATTEMPT (R96). -/
def execAttemptTimerExpiry (s : State) : Host.Outcome State Fault Refusal :=
  s.event fun s => s.when (s.wake.attemptTimer.due && s.wake.phase == .attempt) fun s => s.endAttempt.settle

/-- REST_EXPIRY: the attempt timer expires in phase REST, and the next attempt starts (R97). -/
def execRestExpiry (s : State) : Host.Outcome State Fault Refusal :=
  s.event fun s => s.when (s.wake.attemptTimer.due && s.wake.phase == .rest) fun s =>
    (s.startAttempt (s.wake.attempt + 1)).settle

/-- DRAIN_END (R16). -/
def execDrainEnd (s : State) : Host.Outcome State Fault Refusal :=
  s.event fun s => s.when s.drainEndDue fun s => s.drainEnd.settle

/-- RELEASE_DELAY_EXPIRY: the timer becomes EXPIRED and a delivery may begin (R75, R76). -/
def execReleaseDelayExpiry (s : State) : Host.Outcome State Fault Refusal :=
  s.event fun s => s.when (s.releaseTimer == .running 0) fun s => (s.setReleaseTimer .expired).settle

/-- BEGIN_DELIVERY (R76). -/
def execBeginDelivery (s : State) : Host.Outcome State Fault Refusal :=
  s.event fun s => s.when s.deliveryDue fun s => s.beginDelivery.settle

/-- RELEASE_END (R19). -/
def execReleaseEnd (s : State) : Host.Outcome State Fault Refusal :=
  s.event fun s => s.when s.releaseEndDue fun s => s.releaseEnd.settle

/-- The HELD frame of a serial whose age has reached its class's lifetime (R63). -/
def State.expiring (s : State) (serial : Word16) (d : Descriptor) : Bool :=
  d.serial == serial && d.expires s.hold.configs s.time

/-- EXPIRY of the frame of a serial; a frame that has left, is DELIVERING or has not reached its lifetime does not
expire (R63, R64). -/
def execExpiry (serial : Word16) (s : State) : Host.Outcome State Fault Refusal :=
  s.event fun s => s.when (s.hold.list.any (s.expiring serial)) fun s =>
    (s.setHold (s.hold.removeFirst (s.expiring serial) .expired)).settle

/-- The lease has run out (R134). -/
def State.leaseDue (s : State) : Bool := s.responder.binding.any fun b => b.remaining == 0

/-- LEASE_EXPIRY: the binding ends with its cache, and the notice unit is told (R134, R173). -/
def execLeaseExpiry (s : State) : Host.Outcome State Fault Refusal :=
  s.event fun s => s.when s.leaseDue fun s => s.endBinding.settle

/-- NOTICE_OFFER (R170). -/
def execNoticeOffer (s : State) : Host.Outcome State Fault Refusal :=
  s.event fun s => s.when s.offerDue fun s => s.noticeOffer.settle

/-- The notice unit at the expiry of its timer: the head stays, or is lost after four transmissions (R171). -/
def NoticeUnit.retransmit (u : NoticeUnit) : NoticeUnit :=
  match u.queue with
  | [] => { u with timer := .stopped }
  | n :: rest =>
    if Config.maxTransmissions ≤ n.transmissions then { u with timer := .stopped, queue := rest, lost := u.lost + 1 }
    else { u with timer := .stopped }

/-- RETRANSMIT_TIMER_EXPIRY, with the offer that follows when there is room (R171, R170). -/
def execRetransmitTimerExpiry (s : State) : Host.Outcome State Fault Refusal :=
  s.event fun s => s.when s.notices.timer.due fun s => (s.setNotices s.notices.retransmit).settle

/-! ## One millisecond (spec 00, Conventions; log entry 1) -/

/-- One millisecond off a timer. -/
def Timer.tick : Timer → Timer
  | .stopped => .stopped
  | .running n => .running (n - 1)

/-- One millisecond off the release delay timer. -/
def ReleaseTimer.tick : ReleaseTimer → ReleaseTimer
  | .stopped => .stopped
  | .running n => .running (n - 1)
  | .expired => .expired

/-- One millisecond off the lease (R134). -/
def Binding.tick (b : Binding) : Binding := { b with remaining := b.remaining - 1 }

/-- Part time advances by one, and every running timer by one millisecond. -/
def State.elapse (s : State) : State :=
  { s with
    time := s.time + 1
    releaseTimer := s.releaseTimer.tick
    wake := { s.wake with attemptTimer := s.wake.attemptTimer.tick, pulseTimer := s.wake.pulseTimer.tick }
    responder := { s.responder with binding := s.responder.binding.map Binding.tick }
    notices := { s.notices with timer := s.notices.timer.tick } }

/-- An event where it is due. -/
def dueWhen (due : Bool) (i : Instr) : List Instr := if due then [i] else []

/-- The expiries that are due. -/
def State.dueEvents (s : State) : List Instr :=
  dueWhen s.wake.pulseTimer.due .pulseTimerExpiry ++
    dueWhen (s.wake.attemptTimer.due && s.wake.phase == .attempt) .attemptTimerExpiry ++
    dueWhen (s.wake.attemptTimer.due && s.wake.phase == .rest) .restExpiry ++
    dueWhen (s.releaseTimer == .running 0) .releaseDelayExpiry ++
    dueWhen s.leaseDue .leaseExpiry ++
    dueWhen s.notices.timer.due .retransmitTimerExpiry ++
    (s.hold.list.filter fun d => d.expires s.hold.configs s.time).map fun d => .expiry d.serial

/-- A list reordered by the digits of `n`: each place takes one of those that remain. -/
def reorder {α : Type} : Nat → Nat → List α → List α
  | 0, _, l => l
  | _ + 1, _, [] => []
  | _ + 1, _, [x] => [x]
  | fuel + 1, n, x :: y :: rest =>
    let l := x :: y :: rest
    match l[n % l.length]? with
    | none => l
    | some z => z :: reorder fuel (n / l.length) (l.eraseIdx (n % l.length))

/-- One millisecond passes on an empty queue: the timers run, and what becomes due is put into the queue, in an
order that is a free value (log entries 1, 2). While RESETN is low no timer runs (R125). -/
def State.tick (s : State) : State :=
  if s.pins.resetn then
    let s := s.elapse
    let due := s.dueEvents
    { s with pending := reorder due.length (Config.freeOrder s.freeCount) due, freeCount := s.freeCount + 1 }
  else s

end Sys2Proof.Machine
end

