-- ==== Sys2Proof/Machine/Dispatch.lean ====
section
/-! DEFINITION. One arm for each command. -/

namespace Sys2Proof.Machine

def exec (i : Instr) (s : State) : Host.Outcome State Fault Refusal :=
  match i with
  | .hardwareReset straps linkL linkS => Sys2Proof.Machine.execHardwareReset straps linkL linkS s
  | .resetnAsserted => Sys2Proof.Machine.execResetnAsserted s
  | .lineLinkLoss arriving => Sys2Proof.Machine.execLineLinkLoss arriving s
  | .lineLinkRegain => Sys2Proof.Machine.execLineLinkRegain s
  | .stationLinkLoss arriving => Sys2Proof.Machine.execStationLinkLoss arriving s
  | .stationLinkRegain => Sys2Proof.Machine.execStationLinkRegain s
  | .lineFrameReceived frame => Sys2Proof.Machine.execLineFrameReceived frame s
  | .stationFrameReceived frame => Sys2Proof.Machine.execStationFrameReceived frame s
  | .pulseTimerExpiry => Sys2Proof.Machine.execPulseTimerExpiry s
  | .attemptTimerExpiry => Sys2Proof.Machine.execAttemptTimerExpiry s
  | .restExpiry => Sys2Proof.Machine.execRestExpiry s
  | .drainEnd => Sys2Proof.Machine.execDrainEnd s
  | .releaseDelayExpiry => Sys2Proof.Machine.execReleaseDelayExpiry s
  | .beginDelivery => Sys2Proof.Machine.execBeginDelivery s
  | .releaseEnd => Sys2Proof.Machine.execReleaseEnd s
  | .expiry serial => Sys2Proof.Machine.execExpiry serial s
  | .lineTransmitStart => Sys2Proof.Machine.execLineTransmitStart s
  | .stationTransmitStart => Sys2Proof.Machine.execStationTransmitStart s
  | .lineTransmitComplete => Sys2Proof.Machine.execLineTransmitComplete s
  | .stationTransmitComplete => Sys2Proof.Machine.execStationTransmitComplete s
  | .resetTakesEffect => Sys2Proof.Machine.execResetTakesEffect s
  | .identify h => Sys2Proof.Machine.execIdentify h s
  | .bind h lease => Sys2Proof.Machine.execBind h lease s
  | .unbind h => Sys2Proof.Machine.execUnbind h s
  | .status h => Sys2Proof.Machine.execStatus h s
  | .ruleStage h index action record => Sys2Proof.Machine.execRuleStage h index action record s
  | .ruleDiscard h => Sys2Proof.Machine.execRuleDiscard h s
  | .ruleCommit h => Sys2Proof.Machine.execRuleCommit h s
  | .ruleRead h table index => Sys2Proof.Machine.execRuleRead h table index s
  | .profileWrite h index record => Sys2Proof.Machine.execProfileWrite h index record s
  | .profileRead h index => Sys2Proof.Machine.execProfileRead h index s
  | .templateWrite h index action template => Sys2Proof.Machine.execTemplateWrite h index action template s
  | .templateRead h index => Sys2Proof.Machine.execTemplateRead h index s
  | .classWrite h cls quota lifetime policy => Sys2Proof.Machine.execClassWrite h cls quota lifetime policy s
  | .classRead h cls => Sys2Proof.Machine.execClassRead h cls s
  | .holdList h start serial => Sys2Proof.Machine.execHoldList h start serial s
  | .holdPurge h selection cls serial => Sys2Proof.Machine.execHoldPurge h selection cls serial s
  | .wake h => Sys2Proof.Machine.execWake h s
  | .noticeAck h serial => Sys2Proof.Machine.execNoticeAck h serial s
  | .noticeMask h mask => Sys2Proof.Machine.execNoticeMask h mask s
  | .countersRead h group clear => Sys2Proof.Machine.execCountersRead h group clear s
  | .reset h strength => Sys2Proof.Machine.execReset h strength s
  | .doze h index => Sys2Proof.Machine.execDoze h index s
  | .resume h => Sys2Proof.Machine.execResume h s
  | .stationQuery h => Sys2Proof.Machine.execStationQuery h s
  | .leaseExpiry => Sys2Proof.Machine.execLeaseExpiry s
  | .noticeOffer => Sys2Proof.Machine.execNoticeOffer s
  | .retransmitTimerExpiry => Sys2Proof.Machine.execRetransmitTimerExpiry s

end Sys2Proof.Machine
end

