-- ==== Sys2Proof/Safety.lean ====
section
/-! DEFINITION. The terms in which claims about the part are stated: the invariants of its blocks, when a command is
taken, and what a command leaves behind it. -/

namespace Sys2Proof.Machine

/-! ## Invariants -/

/-- None of the part's own steps is due. -/
def State.nothingDue (s : State) : Bool :=
  !(s.resetDue || s.releaseEndDue || s.drainEndDue || s.deliveryDue || s.lineChoiceDue || s.stationChoiceDue ||
    s.offerDue)

/-- Between events no step of the part's own is outstanding: each was taken within the event that made it possible
(R16, R19, R76, R117, R119, R141, R170). While RESETN is low nothing is taken (R125). -/
def State.Settled (s : State) : Prop := s.pins.resetn = true → s.nothingDue = true

/-- The frames of one class on the hold list. -/
def HoldStore.ofClass (h : HoldStore) (c : HoldClass) : List Descriptor := h.list.filter fun d => d.cls == c

/-- The accounting of the hold store (R47, R48, R55). -/
structure HoldStore.Accounted (h : HoldStore) : Prop where
  blocks : h.freeBlocks + (h.list.map Descriptor.blocks).sum = 384
  descriptors : h.list.length ≤ 128
  used : ∀ c, (h.accounts.get c).used = ((h.ofClass c).map Descriptor.blocks).sum
  held : ∀ c, (h.accounts.get c).held = (h.ofClass c).length
  balance : ∀ c,
    (h.accounts.get c).admitted =
      (h.accounts.get c).delivered + (h.accounts.get c).expired + (h.accounts.get c).evicted +
        (h.accounts.get c).purged + BitVec.ofNat 32 (h.accounts.get c).held

/-- The order of the hold list (R49, R52, R53): counted from the head's serial the serials ascend strictly, next
serial lies beyond them all and at most 32768 beyond the head, and only the head may be DELIVERING. -/
structure HoldStore.Ordered (h : HoldStore) : Prop where
  ascending : ∀ d rest, h.list = d :: rest →
    (h.list.map fun x => serialFrom d.serial x.serial).Pairwise (· < ·)
  beyond : ∀ d rest, h.list = d :: rest → ∀ x ∈ h.list,
    serialFrom d.serial x.serial < serialFrom d.serial h.nextSerial
  near : ∀ d rest, h.list = d :: rest → serialFrom d.serial h.nextSerial ≤ 32768
  onlyHead : ∀ x ∈ h.list.tail, x.state = .held

/-- The laws that bind the station state to the hold list, the transit queue, the wake pending flag, the active
profile and the release delay timer (R2, R7, R9, R17, R73). -/
structure State.ContextLaws (s : State) : Prop where
  awake : s.ctx.station = .awake → s.hold.list = []
  quiet : s.ctx.station = .asleep ∨ s.ctx.station = .waking ∨ s.ctx.station = .unresponsive →
    s.transit.toStation = [] ∧ ∀ d ∈ s.hold.list, d.state = .held
  pending : s.ctx.wakePending = true → s.ctx.station = .dozing
  governed : s.ctx.station ≠ .awake → s.ctx.active ≠ .none
  defined : ∀ i, s.ctx.active = .record i → (s.ctx.profiles.getD i.val none).isSome = true
  timed : s.releaseTimer ≠ .stopped ↔ s.ctx.station = .releasing

/-- The table of the wake controller's phases (R86, R87), with the retries that bound its attempts (R5). -/
structure State.WakeLaws (s : State) : Prop where
  idle : s.wake.phase = .idle ↔ s.ctx.station ≠ .waking
  released : s.wake.phase ≠ .attempt → s.wake.line = .released ∧ s.wake.pulseTimer = .stopped
  stopped : s.wake.phase = .idle ↔ s.wake.attemptTimer = .stopped
  pulse : s.wake.pulseTimer ≠ .stopped → s.wake.line = .asserted
  terms : s.wake.terms.isSome = true ↔ s.ctx.station = .waking
  cleared : s.ctx.station ≠ .waking → s.ctx.station ≠ .unresponsive → s.wake.attempt = 0
  counted : s.ctx.station = .waking → 1 ≤ s.wake.attempt
  most : s.wake.attempt ≤ 8
  resting : s.wake.phase = .rest → s.wake.attempt ≤ 7
  retries : ∀ w, s.wake.terms = some w → w.retries ≤ 7
  profiles : ∀ p, some p ∈ s.ctx.profiles → p.retries ≤ 7

/-- The capacities of the queues and tables (spec 00, Capacities; R25, R40, R100, R106, R115, R116, R118, R120). -/
structure State.Capacities (s : State) : Prop where
  lineControl : s.line.control.length ≤ 4
  stationControl : s.station.control.length ≤ 2
  answers : s.answers.queue.length ≤ 4
  toStation : s.transit.toStation.length ≤ 4
  toLine : s.transit.toLine.length ≤ 4
  active : s.rules.active.length = 32
  staged : s.rules.staged.length = 32
  profiles : s.ctx.profiles.length = 4
  templates : s.answers.templates.length = 16

/-- The notice queue (R167, R168, R170, R173): at most eight records, consecutive serials, only the head
transmitted, at most four times, and only under a binding; the timer runs only for a transmitted head. -/
structure State.NoticeLaws (s : State) : Prop where
  size : s.notices.queue.length ≤ 8
  serials : ∀ (i : Nat) (n : Notice), s.notices.queue[i]? = some n →
    n.serial + BitVec.ofNat 16 (s.notices.queue.length - i) = s.notices.serial
  waiting : ∀ n ∈ s.notices.queue.tail, n.transmissions = 0
  spent : ∀ n ∈ s.notices.queue, n.transmissions ≤ 4
  bound : ∀ n ∈ s.notices.queue, n.transmissions ≠ 0 → s.responder.binding.isSome = true
  running : s.notices.timer ≠ .stopped → ∃ n rest, s.notices.queue = n :: rest ∧ 1 ≤ n.transmissions

/-- A present binding record (R132): an individual manager, a lease in range, no more lease remaining than the lease,
and the cached response to the command of the last accepted sequence. -/
structure State.BindingLaws (s : State) : Prop where
  individual : ∀ b, s.responder.binding = some b → groupBit b.manager = false
  lease : ∀ b, s.responder.binding = some b → 5 ≤ b.lease ∧ b.lease ≤ 600
  remaining : ∀ b, s.responder.binding = some b → b.remaining ≤ b.lease * 1000
  cached : ∀ b, s.responder.binding = some b → b.cached.seq = b.lastSeq ∧ b.cached.kind = 2

/-- A rule record that R25 and R26 allow. -/
structure RuleRecord.Consistent (r : RuleRecord) : Prop where
  sets : r.sets ≠ 0
  minLength : r.minLength = 0 ∨ (64 ≤ r.minLength ∧ r.minLength ≤ 1522)
  windowOffset : r.windowOffset ≤ 1517
  windowLength : 1 ≤ r.mask.length ∧ r.mask.length ≤ 64
  window : r.windowOffset + r.mask.length ≤ 1522
  selected : 1 ≤ selectedCount r.mask
  exactly : ∀ l, r.test = .exactly l → selectedCount r.mask ≤ 16 ∧ l.length = selectedCount r.mask

/-- A profile record whose fields are in range (R5). -/
structure Profile.InRange (p : Profile) : Prop where
  pulse : ∀ w, p.wakeMode = .pulse w → 1 ≤ w ∧ w ≤ 255
  timeout : 1 ≤ p.timeout ∧ p.timeout ≤ 120
  retries : p.retries ≤ 7
  delay : p.releaseDelay ≤ 1000

/-- A template record that R101 and R102 allow. -/
structure Template.Fitting (t : Template) : Prop where
  body : 60 ≤ t.body.length ∧ t.body.length ≤ 256
  count : t.substitutions.length ≤ 4
  fits : ∀ s ∈ t.substitutions, s.target + s.source.size ≤ t.body.length
  trigger : ∀ s ∈ t.substitutions, ∀ off n, s.source = .triggerBytes off n → off ≤ 1521 ∧ 1 ≤ n ∧ n ≤ 16

/-! ## When a command is judged, and what its response leaves -/

/-- A port that receives: RESETN high and its link UP (R121, R122, R125). -/
structure State.Receives (s : State) (p : Port) : Prop where
  high : s.pins.resetn = true
  up : s.linkUp p = true

/-- A control frame that arrives is judged: the port receives, and none of the tests of R127 discards it. -/
structure State.Judges (s : State) (h : CmdHeader) : Prop extends s.Receives h.port where
  noReset : s.responder.resetPending = none
  individual : groupBit h.source = false
  room : (s.controlQueue h.port).length < controlCap h.port

/-- A bound-only command from the bound manager with the next sequence is executed (R129, R137). -/
structure State.Executes (s : State) (h : CmdHeader) (b : Binding) : Prop extends s.Judges h where
  port : h.port = .line
  binding : s.responder.binding = some b
  manager : b.manager = h.source
  sequence : h.seq = b.lastSeq + 1

/-- A station command is executed (R142). -/
structure State.Serves (s : State) (h : CmdHeader) : Prop extends s.Judges h where
  port : h.port = .station

/-- The response to a command of the table (R126). -/
def State.reply (s : State) (h : CmdHeader) (k : Cmd) (status : Status) (body : List Byte) : CtlFrame :=
  { dst := h.source, src := s.unitAddress, kind := 2, code := k.code, status := status.code, seq := h.seq,
    tag := h.tag, body := body }

/-- The line port's counters after the reception of a control frame (R112, R114). -/
def PortCounters.consumed (c : PortCounters) : PortCounters :=
  { c with received := c.received + 1, controlConsumed := c.controlConsumed + 1 }

/-- The state after the reception of a control frame on a port has been counted (R112, R114). -/
def State.heard (s : State) (p : Port) : State :=
  match p with
  | .line => s.setLine { s.line with rx := none, counters := s.line.counters.consumed }
  | .station => s.setStation { s.station with rx := none, counters := s.station.counters.consumed }

/-- The state after the reception of traffic on a port has been counted (R112, R114). -/
def State.takenIn (s : State) (p : Port) : State :=
  match p with
  | .line =>
    s.setLine { s.line with rx := none, counters := { s.line.counters with received := s.line.counters.received + 1 } }
  | .station =>
    s.setStation
      { s.station with rx := none, counters := { s.station.counters with received := s.station.counters.received + 1 } }

/-- The offsets of a frame that a rule selects, in ascending order (R29). -/
def RuleRecord.offsets (r : RuleRecord) : List Nat :=
  ((List.range r.mask.length).filter fun k => r.mask.getD k false).map fun k => r.windowOffset + k

/-- The state after a control frame was received at a port and a response placed on it, everything else as it was:
the transmitter, if it was idle, begins with the response. -/
def State.withReply (s : State) (p : Port) (r : CtlFrame) : State :=
  match p with
  | .line =>
    s.setLine
      { s.line with
        rx := none
        tx := some (s.line.tx.getD .control)
        control := s.line.control ++ [r]
        counters := s.line.counters.consumed }
  | .station =>
    s.setStation
      { s.station with
        rx := none
        tx := some (s.station.tx.getD .control)
        control := s.station.control ++ [r]
        counters := s.station.counters.consumed }

/-- The binding after a command was executed under it (R137, R138). -/
def Binding.accept (b : Binding) (r : CtlFrame) : Binding :=
  { b with lastSeq := r.seq, cached := r, remaining := b.lease * 1000 }

/-- The state after a bound-only command was executed with this status and body and changed nothing of its owning
block: the reception counted, the response placed and cached, the sequence accepted, the lease renewed (R138). -/
def State.executed (s : State) (h : CmdHeader) (k : Cmd) (b : Binding) (status : Status) (body : List Byte) : State :=
  (s.withReply .line (s.reply h k status body)).setBinding (some (b.accept (s.reply h k status body)))

end Sys2Proof.Machine

namespace Sys2Proof

/-- The management or station command that a row of the table carries: header, code and parameters (R130). -/
def Instr.asCommand : Instr → Option (CmdHeader × Machine.Cmd × List Byte)
  | .identify h => some (h, .identify, [])
  | .bind h lease => some (h, .bind, Machine.be16 lease)
  | .unbind h => some (h, .unbind, [])
  | .status h => some (h, .status, [])
  | .ruleStage h index action record => some (h, .ruleStage, [index, action] ++ record)
  | .ruleDiscard h => some (h, .ruleDiscard, [])
  | .ruleCommit h => some (h, .ruleCommit, [])
  | .ruleRead h table index => some (h, .ruleRead, [table, index])
  | .profileWrite h index record => some (h, .profileWrite, index :: record)
  | .profileRead h index => some (h, .profileRead, [index])
  | .templateWrite h index action template => some (h, .templateWrite, [index, action] ++ template)
  | .templateRead h index => some (h, .templateRead, [index])
  | .classWrite h cls quota lifetime policy =>
    some (h, .classWrite, [cls] ++ Machine.be16 quota ++ Machine.be16 lifetime ++ [policy])
  | .classRead h cls => some (h, .classRead, [cls])
  | .holdList h start serial => some (h, .holdList, [start] ++ Machine.be16 serial)
  | .holdPurge h selection cls serial => some (h, .holdPurge, [selection, cls] ++ Machine.be16 serial)
  | .wake h => some (h, .wake, [])
  | .noticeAck h serial => some (h, .noticeAck, Machine.be16 serial)
  | .noticeMask h mask => some (h, .noticeMask, [mask])
  | .countersRead h group clear => some (h, .countersRead, [group, clear])
  | .reset h strength => some (h, .reset, [strength])
  | .doze h index => some (h, .doze, [index])
  | .resume h => some (h, .resume, [])
  | .stationQuery h => some (h, .stationQuery, [])
  | .hardwareReset _ _ _ | .resetnAsserted | .lineLinkLoss _ | .lineLinkRegain | .stationLinkLoss _
  | .stationLinkRegain | .lineFrameReceived _ | .stationFrameReceived _ | .pulseTimerExpiry
  | .attemptTimerExpiry | .restExpiry | .drainEnd | .releaseDelayExpiry | .beginDelivery | .releaseEnd
  | .expiry _ | .lineTransmitStart | .stationTransmitStart | .lineTransmitComplete | .stationTransmitComplete
  | .resetTakesEffect | .leaseExpiry | .noticeOffer | .retransmitTimerExpiry => none

end Sys2Proof
end

