-- ==== Sys2Proof/WellFormed.lean ====
section
/-! DEFINITION. Well-formed commands: what a sender can put to the part. -/

namespace Sys2Proof

/-- A reception in progress has at least its first byte (R112). -/
def arrivingOk : Option (List Byte) → Bool
  | none => true
  | some bytes => !bytes.isEmpty

/-- The frame that carries `n` bytes of parameters (24 bytes of header, 4 of FCS, R126) is of acceptable
length (R112); a longer one is an intake error and never a command. -/
def paramsFit (n : Nat) : Bool := decide (24 + n + 4 ≤ Config.maxFrame)

/-- Well-formedness of a command. A received frame has a first byte; a command's variable parameters fit a
frame; a profile record has 12 bytes (R145). Values out of range are well-formed: the part judges them. -/
def Instr.wellFormed : Instr → Bool
  | .hardwareReset _ _ _ => true
  | .resetnAsserted => true
  | .lineLinkLoss arriving => arrivingOk arriving
  | .lineLinkRegain => true
  | .stationLinkLoss arriving => arrivingOk arriving
  | .stationLinkRegain => true
  | .lineFrameReceived frame => !frame.isEmpty
  | .stationFrameReceived frame => !frame.isEmpty
  | .pulseTimerExpiry => true
  | .attemptTimerExpiry => true
  | .restExpiry => true
  | .drainEnd => true
  | .releaseDelayExpiry => true
  | .beginDelivery => true
  | .releaseEnd => true
  | .expiry _ => true
  | .lineTransmitStart => true
  | .stationTransmitStart => true
  | .lineTransmitComplete => true
  | .stationTransmitComplete => true
  | .resetTakesEffect => true
  | .identify _ => true
  | .bind _ _ => true
  | .unbind _ => true
  | .status _ => true
  | .ruleStage _ _ _ record => paramsFit (2 + record.length)
  | .ruleDiscard _ => true
  | .ruleCommit _ => true
  | .ruleRead _ _ _ => true
  | .profileWrite _ _ record => decide (record.length = 12)
  | .profileRead _ _ => true
  | .templateWrite _ _ _ template => paramsFit (2 + template.length)
  | .templateRead _ _ => true
  | .classWrite _ _ _ _ _ => true
  | .classRead _ _ => true
  | .holdList _ _ _ => true
  | .holdPurge _ _ _ _ => true
  | .wake _ => true
  | .noticeAck _ _ => true
  | .noticeMask _ _ => true
  | .countersRead _ _ _ => true
  | .reset _ _ => true
  | .doze _ _ => true
  | .resume _ => true
  | .stationQuery _ => true
  | .leaseExpiry => true
  | .noticeOffer => true
  | .retransmitTimerExpiry => true

end Sys2Proof
end

