-- ==== Sys2Proof/Certificates/Slice0/Obligations.lean ====
section
/-! DEFINITION. The statements about the model, for the provers. -/

section

open Sys2Proof Sys2Proof.Machine

/-! ## The step, the resets and the pins -/

/-- A step takes the command at the front of the queue and runs it on the state with the queue's rest. -/
def Obligations.StepTakesTheFrontCommand : Prop :=
  ∀ (s : State) (c : Instr) (rest : List Instr), s.pending = c :: rest → step s = exec c (s.setPending rest)

/-- On an empty queue one millisecond passes (the model's choice, log entry 1): part time advances by one, every
running timer and the lease lose one millisecond, nothing else changes, and exactly the expiries that are due then
wait, each once where the hold list has its order, in an order that nothing fixes (log entry 2). The seven expiries are
due as R63, R75, R95 to R97, R134 and R171 give, a timer of no remaining time being due (log entry 3). While RESETN is
low nothing passes. -/
def Obligations.EmptyQueuePassesOneMillisecond : Prop :=
  (∀ s : State, s.pending = [] →
    (s.pins.resetn = false → step s = .next s) ∧
    (s.pins.resetn = true → ∃ order : List Instr, order.Perm s.elapse.dueEvents ∧
      step s = .next ((s.elapse.setPending order).setFreeCount (s.freeCount + 1))) ∧
    s.elapse =
      ((((s.setTime (s.time + 1)).setReleaseTimer s.releaseTimer.tick).setWake
        { s.wake with attemptTimer := s.wake.attemptTimer.tick, pulseTimer := s.wake.pulseTimer.tick }).setResponder
        { s.responder with binding := s.responder.binding.map Binding.tick }).setNotices
        { s.notices with timer := s.notices.timer.tick } ∧
    (∀ n, (Timer.running n).tick = .running (n - 1) ∧ (ReleaseTimer.running n).tick = .running (n - 1)) ∧
    Timer.stopped.tick = .stopped ∧ ReleaseTimer.stopped.tick = .stopped ∧ ReleaseTimer.expired.tick = .expired ∧
    (∀ b : Binding, b.tick = { b with remaining := b.remaining - 1 })) ∧
  (∀ (s : State) (e : Instr), e ∈ s.dueEvents ↔
    (e = .pulseTimerExpiry ∧ s.wake.pulseTimer = .running 0) ∨
    (e = .attemptTimerExpiry ∧ s.wake.attemptTimer = .running 0 ∧ s.wake.phase = .attempt) ∨
    (e = .restExpiry ∧ s.wake.attemptTimer = .running 0 ∧ s.wake.phase = .rest) ∨
    (e = .releaseDelayExpiry ∧ s.releaseTimer = .running 0) ∨
    (e = .leaseExpiry ∧ ∃ b, s.responder.binding = some b ∧ b.remaining = 0) ∨
    (e = .retransmitTimerExpiry ∧ s.notices.timer = .running 0) ∨
    (∃ d ∈ s.hold.list, e = .expiry d.serial ∧ d.state = .held ∧ (s.hold.configs.get d.cls).lifetime ≠ 0 ∧
      (s.hold.configs.get d.cls).lifetime * 1000 ≤ (s.time - d.arrival).toNat)) ∧
  (∀ s : State, s.hold.Ordered → s.dueEvents.Nodup)

/-- Every command answers a next state, in every state: no fault and no refusal (DEDUCED, log entry 22). No command
touches the queue or the free count, which are the model's own and which a reset keeps (DESIGN CHOICE, log entry 16),
and none but HARDWARE_RESET touches part time. -/
def Obligations.EveryCommandAnswersNext : Prop :=
  ∀ (c : Instr) (s : State), ∃ t : State, exec c s = .next t ∧ t.pending = s.pending ∧ t.freeCount = s.freeCount ∧
    (t.time = s.time ∨ ∃ straps l r, c = .hardwareReset straps l r)

/-- RESETN falling cuts the transmissions, abandons the receptions and changes nothing else; the WAKE pin is high
exactly where RESETN is high and the wake line ASSERTED; while RESETN is low no command but HARDWARE_RESET has an effect
(R125). The counting of the cut at this event and the abandoned receptions are DEDUCED (log entry 13). What a receiver
has of an ended transmission, in the model's own record (log entry 10): of a completed one the frame; of one cut at a
reset fewer bytes than the frame has, closed with four that are no valid FCS for them, so that it fails intake; of one
stopped at a link loss fewer bytes than the frame has (R83, R117, R119, R121 to R123). How many and which four is free
(log entry 23). The frame in transmission is the head of the source that the arbiter took. -/
def Obligations.ResetnLowStopsThePart : Prop :=
  (∀ s : State, s.pins.resetn = true →
    exec .resetnAsserted s = .next
      (((s.setPins { s.pins with resetn := false }).setLine
        { s.line with rx := none, tx := none, lastSent := sentAfter .line s.line.lastSent s.lineTxFrame .cutBadFcs }).setStation
        { s.station with
          rx := none, tx := none, lastSent := sentAfter .station s.station.lastSent s.stationTxFrame .cutBadFcs
          releaseCut := if s.station.tx = some .release then s.station.releaseCut + 1 else s.station.releaseCut })) ∧
  (∀ s : State, s.wakePin = true ↔ s.pins.resetn = true ∧ s.wake.line = .asserted) ∧
  (∀ (c : Instr) (s : State), s.pins.resetn = false → (∀ straps l r, c ≠ .hardwareReset straps l r) →
    exec c s = .next s) ∧
  (∀ (p : Port) (log : SentLog) (f : Frame),
    let ended := fun (how : TxEnd) (bytes : List Byte) (cuts : Nat) =>
      sentAfter p log (some f) how = { last := some { ending := how, frame := f, bytes := bytes }, cuts := cuts }
    (∀ how, sentAfter p log none how = log) ∧
    ended .completed f log.cuts ∧
    (f ≠ [] → ∃ n, n < f.length ∧ ended .stoppedAtLoss (f.take n) (log.cuts + 1)) ∧
    (f ≠ [] → ∃ (n : Nat) (wrong : List Byte), n < f.length ∧ wrong.length = 4 ∧ wrong ≠ fcsBytes (f.take n) ∧
      intakeOk (f.take n ++ wrong) = false ∧ ended .cutBadFcs (f.take n ++ wrong) (log.cuts + 1))) ∧
  (∀ s : State,
    (s.line.tx = none → s.lineTxFrame = none) ∧
    (s.line.tx = some .control → s.lineTxFrame = s.line.control.head?.map CtlFrame.wire) ∧
    (s.line.tx = some .answer → s.lineTxFrame = s.answers.queue.head?) ∧
    (s.line.tx = some .transit → s.lineTxFrame = s.transit.toLine.head?) ∧
    (s.station.tx = none → s.stationTxFrame = none) ∧
    (s.station.tx = some .control → s.stationTxFrame = s.station.control.head?.map CtlFrame.wire) ∧
    (s.station.tx = some .release → s.stationTxFrame = s.delivering.map Descriptor.frame) ∧
    (s.station.tx = some .transit → s.stationTxFrame = s.transit.toStation.head?) ∧
    (∀ before d after, s.hold.list = before ++ d :: after → d.state = .delivering → (∀ x ∈ before, x.state = .held) →
      s.delivering = some d) ∧
    ((∀ x ∈ s.hold.list, x.state = .held) → s.delivering = none))

/-- HARDWARE_RESET, in every state: the straps and the link inputs are taken, part time is 0, RESETN is high and every
block holds its hardware reset values; a transmission in progress is cut (R123; log entry 23), and the queue and the
model's own records are kept (log entries 10, 16). -/
def Obligations.HardwareResetGivesTheResetValues : Prop :=
  ∀ (straps : BitVec 6) (l r : Bool) (s : State),
    exec (.hardwareReset straps l r) s = .next
      { State.reset with
        pending := s.pending
        pins := { straps := straps, linkL := l, linkS := r, resetn := true }
        unitStraps := straps
        line := { LinePort.initial l with lastSent := sentAfter .line s.line.lastSent s.lineTxFrame .cutBadFcs }
        station := { StationPort.initial r with lastSent := sentAfter .station s.station.lastSent s.stationTxFrame .cutBadFcs }
        freeCount := s.freeCount }

/-- The reset state is the unconfigured part of R177: what every block, every queue, every counter and both ports hold
(R4, R45, R71, R86, R100, R110, R123, R124, R141, R167). The values of a port are those for either level of its link
input. (The strap and link levels of the reset state are the model's choice, log entry 5, the records of ended
transmissions are the model's own, log entry 17, and nothing is said of them here.) -/
def Obligations.ResetStateIsUnconfigured : Prop :=
  State.reset.pending = [] ∧ State.reset.time = 0 ∧
  State.reset.ctx =
    { station := .awake, profiles := [none, none, none, none], active := .none, address := none,
      wakePending := false } ∧
  State.reset.rules.active.length = 32 ∧ (∀ e ∈ State.reset.rules.active, e.record = none ∧ e.count = 0) ∧
  State.reset.rules.staged.length = 32 ∧ (∀ e ∈ State.reset.rules.staged, e = .noChange) ∧
  State.reset.rules.unmatchedHeld = 0 ∧ State.reset.rules.unmatchedDiscarded = 0 ∧
  State.reset.hold.freeBlocks = 384 ∧ State.reset.hold.list = [] ∧ State.reset.hold.nextSerial = 0 ∧
  (∀ c : HoldClass, c ≠ .b →
    State.reset.hold.configs.get c = { quota := 96, lifetime := 600, policy := .refuseNew }) ∧
  (∀ c : HoldClass, State.reset.hold.accounts.get c =
    { used := 0, held := 0, admitted := 0, delivered := 0, expired := 0, evicted := 0, refused := 0, purged := 0 }) ∧
  State.reset.releaseTimer = .stopped ∧
  State.reset.wake =
    { line := .released, phase := .idle, attempt := 0, terms := none, attemptTimer := .stopped,
      pulseTimer := .stopped } ∧
  State.reset.answers.templates.length = 16 ∧ (∀ t ∈ State.reset.answers.templates, t = none) ∧
  State.reset.answers.queue = [] ∧ State.reset.answers.sent = 0 ∧ State.reset.answers.queueFull = 0 ∧
  State.reset.answers.shortTrigger = 0 ∧ State.reset.answers.undefinedTemplate = 0 ∧
  State.reset.responder =
    { binding := none, resetPending := none, lineMalformed := 0, lineOverrun := 0, stationMalformed := 0,
      stationOverrun := 0 } ∧
  State.reset.transit = { toStation := [], toLine := [] } ∧
  State.reset.pins.resetn = true ∧
  (∃ up, State.reset.line = LinePort.initial up) ∧ (∃ up, State.reset.station = StationPort.initial up) ∧
  (∀ up : Bool,
    let zero : PortCounters :=
      { received := 0, intakeErrors := 0, controlConsumed := 0, transmitted := 0, transitDrops := 0,
        linkDownDiscards := 0 }
    LinePort.initial up =
      { linkUp := up, rx := none, tx := none, control := [], counters := zero
        lastSent := (LinePort.initial up).lastSent } ∧
    StationPort.initial up =
      { linkUp := up, rx := none, tx := none, control := [], counters := zero, releaseCut := 0
        lastSent := (StationPort.initial up).lastSent }) ∧
  State.reset.notices.queue = [] ∧ State.reset.notices.serial = 0 ∧ State.reset.notices.lost = 0 ∧
  State.reset.notices.mask = 0x6#4 ∧ State.reset.notices.timer = .stopped

/-! ## The management session -/

/-- IDENTIFY, on either port and in every binding state, is answered with the identity body and changes nothing else
(R149, R142); the body's 24 bytes are those of R146. -/
def Obligations.IdentifyAnswersAndChangesNothing : Prop :=
  (∀ (s : State) (h : CmdHeader), s.Settled → s.Judges h →
    exec (.identify h) s = .next (s.withReply h.port (s.reply h .identify .ok s.identityBody))) ∧
  (∀ s : State, s.responder.binding = none →
    s.identityBody = macBytes s.unitAddress ++
      [0x02, 0x08, 1, 32, 4, 16, 5, 8, 0x01, 0x80, 128, 0, 0, 0, 0, 0, 0, 0]) ∧
  (∀ (s : State) (b : Binding), s.responder.binding = some b →
    s.identityBody = macBytes s.unitAddress ++ [0x02, 0x08, 1, 32, 4, 16, 5, 8, 0x01, 0x80, 128, 1] ++
      macBytes b.manager)

/-- A BIND on the line port with no binding present, or from the bound manager: with a lease of 0 (taken as 60) or of
5 to 600 s the binding is formed or remade, its response cached, and a waiting notice offered; with any other lease
BAD_VALUE and nothing else; from another address BOUND_ELSEWHERE with the lease remaining and nothing else (R133),
whatever its lease, a bad one included (DEDUCED, log entry 8). -/
def Obligations.BindFormsOrRemakesTheBinding : Prop :=
  ∀ (s : State) (h : CmdHeader) (lease : Word16), s.Settled → s.Judges h → h.port = .line →
    ((∀ b, s.responder.binding = some b → b.manager = h.source) → ∀ granted : Nat,
      (lease = 0 ∧ granted = 60) ∨ (5 ≤ lease.toNat ∧ lease.toNat ≤ 600 ∧ granted = lease.toNat) →
      exec (.bind h lease) s = .next
        ((s.withReply .line (s.reply h .bind .ok (nat16 granted))).setBinding
          (some { manager := h.source, lease := granted, remaining := granted * 1000, lastSeq := h.seq,
                  cached := s.reply h .bind .ok (nat16 granted) })).settleOffer) ∧
    ((∀ b, s.responder.binding = some b → b.manager = h.source) →
      (1 ≤ lease.toNat ∧ lease.toNat ≤ 4) ∨ 600 < lease.toNat →
      exec (.bind h lease) s = .next (s.withReply .line (s.reply h .bind .badValue []))) ∧
    (∀ b, s.responder.binding = some b → b.manager ≠ h.source →
      exec (.bind h lease) s = .next
        (s.withReply .line (s.reply h .bind .boundElsewhere (be32 (BitVec.ofNat 32 b.remaining)))))

/-- UNBIND (R135): executed, its OK response without a body is placed, and the binding, its cache included, ends
within the event; the notice unit is told (its timer stops and its head's count returns to 0). Its retransmission
finds no binding and is refused with NOT_BOUND; if another manager has bound, with BOUND_ELSEWHERE. -/
def Obligations.UnbindEndsTheBinding : Prop :=
  (∀ (s : State) (h : CmdHeader) (b : Binding), s.Settled → s.Executes h b →
    exec (.unbind h) s = .next
      (((s.withReply .line (s.reply h .unbind .ok [])).setBinding none).setNotices
        { s.notices with
          timer := .stopped
          queue := match s.notices.queue with
            | [] => []
            | n :: rest => { n with transmissions := 0 } :: rest })) ∧
  (∀ (s : State) (h : CmdHeader), s.Settled → s.Judges h → h.port = .line → s.responder.binding = none →
    exec (.unbind h) s = .next (s.withReply .line (s.reply h .unbind .notBound []))) ∧
  (∀ (s : State) (h : CmdHeader) (b : Binding), s.Settled → s.Judges h → h.port = .line →
    s.responder.binding = some b → b.manager ≠ h.source →
    exec (.unbind h) s = .next
      (s.withReply .line (s.reply h .unbind .boundElsewhere (be32 (BitVec.ofNat 32 b.remaining)))))

/-- STATUS answers the 60-byte status body of R146 and changes nothing but the session (R151); the lease remaining it
shows is that at its arrival. The codes of the station states are those of R1, that of the active profile that of R146,
and fields of two, four and six bytes stand most significant byte first. -/
def Obligations.StatusReportsThePart : Prop :=
  (∀ (s : State) (h : CmdHeader) (b : Binding), s.Settled → s.Executes h b →
    exec (.status h) s = .next (s.executed h .status b .ok s.statusBody)) ∧
  (∀ s : State,
    s.statusBody.length = 60 ∧
    s.statusBody.take 3 = [s.ctx.station.code, s.ctx.active.code, boolByte s.ctx.address.isSome] ∧
    (s.statusBody.drop 3).take 6 = macBytes (s.ctx.address.getD 0) ∧
    (s.statusBody.drop 9).take 3 = [boolByte s.ctx.wakePending, byteOf s.wake.attempt, byteOf s.hold.list.length] ∧
    (s.statusBody.drop 12).take 2 = nat16 s.hold.freeBlocks ∧
    (s.statusBody.drop 14).take 2 = [byteOf (128 - s.hold.list.length), 0] ∧
    (s.statusBody.drop 16).take 15 =
      [HoldClass.c0, .c1, .c2, .c3, .b].flatMap
        (fun c => nat16 (s.hold.accounts.get c).used ++ [byteOf (s.hold.accounts.get c).held]) ∧
    (s.statusBody.drop 31).take 1 = [0] ∧
    (s.statusBody.drop 32).take 4 = be32 (BitVec.ofNat 32 (s.responder.binding.elim 0 Binding.remaining)) ∧
    (s.statusBody.drop 36).take 4 = be32 s.time ∧
    (s.statusBody.drop 40).take 2 = [byteOf s.notices.queue.length, 0] ∧
    (s.statusBody.drop 42).take 2 = be16 s.notices.lost ∧
    s.statusBody.drop 44 = be32 s.responder.lineMalformed ++ be32 s.responder.lineOverrun ++
      be32 s.responder.stationMalformed ++ be32 s.responder.stationOverrun) ∧
  [StationState.awake, .dozing, .asleep, .waking, .unresponsive, .releasing].map StationState.code =
    [0, 1, 2, 3, 4, 5] ∧
  (∀ i : Fin 4, (ActiveProfile.record i).code.toNat = i.val) ∧ ActiveProfile.builtIn.code = 4 ∧
  ActiveProfile.none.code = 0xFF ∧
  boolByte false = 0 ∧ boolByte true = 1 ∧ (∀ n : Nat, n < 256 → (byteOf n).toNat = n) ∧
  (∀ n : Nat, nat16 n = be16 (BitVec.ofNat 16 n)) ∧
  (∀ x : Word16, be16 x = [(x >>> 8).setWidth 8, x.setWidth 8]) ∧
  (∀ x : Word32, be32 x = [24, 16, 8, 0].map fun k => (x >>> k).setWidth 8) ∧
  (∀ x : Mac, macBytes x = [40, 32, 24, 16, 8, 0].map fun k => (x >>> k).setWidth 8)

/-- Every bound-only command but UNBIND that is accepted by its sequence, whatever its own checks decide, has its
response placed in the line control queue, ahead of any notice offered in the event, and cached; the sequence is
accepted and the lease renewed (R127, R137, R138). -/
def Obligations.AcceptedCommandAdvancesTheSession : Prop :=
  ∀ (i : Instr) (h : CmdHeader) (k : Cmd) (params : List Byte) (s : State) (b : Binding),
    i.asCommand = some (h, k, params) → k.boundOnly = true → k ≠ .unbind → k.lengthOk params.length = true →
    s.Settled → s.Executes h b →
    ∃ (t : State) (status : Status) (body : List Byte) (later : List CtlFrame), exec i s = .next t ∧
      t.responder.binding = some
        { b with lastSeq := h.seq, cached := s.reply h k status body, remaining := b.lease * 1000 } ∧
      t.line.control = s.line.control ++ s.reply h k status body :: later

/-- A bound-only command from the bound manager that repeats the last accepted sequence is answered by the cached
response with kind 4, and only the lease is renewed; any other sequence but the next is refused with OUT_OF_SEQUENCE
and the expected sequence, and nothing else changes; with no binding NOT_BOUND, with another manager's BOUND_ELSEWHERE
and the lease remaining, and nothing else changes (R129, R137, R139). -/
def Obligations.SequenceAndBindingAreJudged : Prop :=
  ∀ (i : Instr) (h : CmdHeader) (k : Cmd) (params : List Byte) (s : State),
    i.asCommand = some (h, k, params) → k.boundOnly = true → k.lengthOk params.length = true →
    s.Settled → s.Judges h → h.port = .line →
    (s.responder.binding = none → exec i s = .next (s.withReply .line (s.reply h k .notBound []))) ∧
    (∀ b, s.responder.binding = some b →
      (b.manager ≠ h.source →
        exec i s = .next
          (s.withReply .line (s.reply h k .boundElsewhere (be32 (BitVec.ofNat 32 b.remaining))))) ∧
      (b.manager = h.source → h.seq = b.lastSeq →
        exec i s = .next
          ((s.withReply .line { b.cached with kind := 4 }).setBinding
            (some { b with remaining := b.lease * 1000 }))) ∧
      (b.manager = h.source → h.seq ≠ b.lastSeq → h.seq ≠ b.lastSeq + 1 →
        exec i s = .next (s.withReply .line (s.reply h k .outOfSequence (be16 (b.lastSeq + 1))))))

/-- The tests of R127, in order, for every command on a port that receives: while a reset is pending the frame is an
overrun; else from a group source it is malformed; else with a full control queue, of four at the line and two at the
station, it is an overrun. Nothing but the reception and that one count changes. -/
def Obligations.DiscardsBeforeJudging : Prop :=
  (∀ (i : Instr) (h : CmdHeader) (k : Cmd) (params : List Byte) (s : State),
    i.asCommand = some (h, k, params) → i.wellFormed = true → s.Settled → s.Receives h.port →
    (s.responder.resetPending.isSome = true → exec i s = .next ((s.heard h.port).countOverrun h.port)) ∧
    (s.responder.resetPending = none → groupBit h.source = true →
      exec i s = .next ((s.heard h.port).countMalformed h.port)) ∧
    (s.responder.resetPending = none → groupBit h.source = false →
      controlCap h.port ≤ (s.controlQueue h.port).length →
      exec i s = .next ((s.heard h.port).countOverrun h.port))) ∧
  controlCap .line = 4 ∧ controlCap .station = 2 ∧
  (∀ s : State,
    s.controlQueue .line = s.line.control ∧ s.controlQueue .station = s.station.control ∧
    s.countOverrun .line = s.setResponder { s.responder with lineOverrun := s.responder.lineOverrun + 1 } ∧
    s.countOverrun .station = s.setResponder { s.responder with stationOverrun := s.responder.stationOverrun + 1 } ∧
    s.countMalformed .line = s.setResponder { s.responder with lineMalformed := s.responder.lineMalformed + 1 } ∧
    s.countMalformed .station =
      s.setResponder { s.responder with stationMalformed := s.responder.stationMalformed + 1 })

/-- The first four checks of R129, in order, for a control frame received on either port: version, length, code and
kind, port. The first that fails decides the status, and nothing but the reception and the response changes. The codes,
lengths, ports and binding of the 24 commands are those of the table of R130, any other code is none of theirs, and the
codes of the statuses are those of R128. -/
def Obligations.ChecksBeforeTheSession : Prop :=
  (∀ (p : Port) (f : Frame) (s : State), intakeOk f = true → s.isControl f = true → s.Settled →
    s.Judges { port := p, source := macAt f 6, seq := word16At f 18, tag := word16At f 20 } →
    let c := Ctl.ofFrame p f
    let refused := fun x : Status =>
      Host.Outcome.next (φ := Fault) (ρ := Refusal) (s.withReply p (c.response s.unitAddress x []))
    let out := match p with
      | .line => exec (.lineFrameReceived f) s
      | .station => exec (.stationFrameReceived f) s
    let within := natAt f 22 2 ≤ 1024 ∧ 24 + natAt f 22 2 ≤ f.length - 4
    (byteAt f 14 ≠ 1 → out = refused .badVersion) ∧
    (byteAt f 14 = 1 → ¬ within → out = refused .badLength) ∧
    (byteAt f 14 = 1 → within → Cmd.ofCode (byteAt f 16) = none → out = refused .badCode) ∧
    (∀ k, byteAt f 14 = 1 → within → Cmd.ofCode (byteAt f 16) = some k →
      (k.lengthOk (natAt f 22 2) = false → out = refused .badLength) ∧
      (k.lengthOk (natAt f 22 2) = true → byteAt f 15 ≠ 1 → out = refused .badCode) ∧
      (k.lengthOk (natAt f 22 2) = true → byteAt f 15 = 1 → k.permitted p = false → out = refused .notPermitted))) ∧
  (let row := fun (k : Cmd) (code : Byte) (line station bound : Bool) (permitted : Nat → Prop) =>
      k.code = code ∧ k.permitted .line = line ∧ k.permitted .station = station ∧ k.boundOnly = bound ∧
        ∀ n : Nat, k.lengthOk n = true ↔ permitted n
    let managed := fun (k : Cmd) (code : Byte) (length : Nat) => row k code true false true fun n => n = length
    let stationed := fun (k : Cmd) (code : Byte) (length : Nat) => row k code false true false fun n => n = length
    row .identify 0x01 true true false (fun n => n = 0) ∧
    row .bind 0x02 true false false (fun n => n = 2) ∧
    managed .unbind 0x03 0 ∧ managed .status 0x04 0 ∧
    row .ruleStage 0x10 true false true (fun n => n = 2 ∨ (25 ≤ n ∧ n ≤ 41)) ∧
    managed .ruleDiscard 0x11 0 ∧ managed .ruleCommit 0x12 0 ∧ managed .ruleRead 0x13 2 ∧
    managed .profileWrite 0x18 13 ∧ managed .profileRead 0x19 1 ∧
    row .templateWrite 0x1C true false true (fun n => n = 2 ∨ (65 ≤ n ∧ n ≤ 285)) ∧
    managed .templateRead 0x1D 1 ∧ managed .classWrite 0x20 6 ∧ managed .classRead 0x21 1 ∧
    managed .holdList 0x28 3 ∧ managed .holdPurge 0x29 4 ∧ managed .wake 0x30 0 ∧ managed .noticeAck 0x38 2 ∧
    managed .noticeMask 0x39 1 ∧ managed .countersRead 0x40 2 ∧ managed .reset 0x7F 1 ∧
    stationed .doze 0x50 1 ∧ stationed .resume 0x51 0 ∧ stationed .stationQuery 0x52 0) ∧
  (∀ (code : Byte) (k : Cmd), Cmd.ofCode code = some k ↔ k.code = code) ∧
  [Status.ok, .badVersion, .badLength, .badCode, .notBound, .boundElsewhere, .outOfSequence, .badIndex, .badValue,
    .wrongState, .notPermitted, .profileUndefined, .stale].map Status.code =
    [0, 1, 2, 3, 4, 5, 6, 7, 8, 9, 10, 11, 12]

/-- A command's row does exactly what the frame on the wire does: for every well-formed command of the table, whatever
its header and parameters, and whichever of the part's two addresses the frame is sent to, the row's effect is that of
receiving the frame whose bytes carry it (R126, R114). No bit of the frame is dropped. (That the row of a command is the
arrival of its frame is DEDUCED, log entry 6.) The two addresses are those of R113, and a frame is a control frame
exactly by its type field and one of them (R114). -/
def Obligations.RowIsTheFrameOnTheWire : Prop :=
  (∀ (i : Instr) (h : CmdHeader) (k : Cmd) (params : List Byte) (dst : Mac) (s : State),
    i.asCommand = some (h, k, params) → i.wellFormed = true →
    dst = s.unitAddress ∨ dst = Config.groupAddress →
    exec i s = exec (match h.port with
      | .line => .lineFrameReceived (commandFrame dst h k params)
      | .station => .stationFrameReceived (commandFrame dst h k params)) s) ∧
  (∀ (dst : Mac) (h : CmdHeader) (k : Cmd) (params : List Byte),
    let content := macBytes dst ++ macBytes h.source ++ [0xB5, 0x9E, 1, 1, k.code, 0] ++ be16 h.seq ++ be16 h.tag ++
      nat16 params.length ++ params
    let padded := content ++ List.replicate (60 - content.length) 0
    commandFrame dst h k params = padded ++ fcsBytes padded) ∧
  (∀ s : State, macBytes s.unitAddress = [0x0A, 0x3C, 0x71, 0xE5, 0x20, s.unitStraps.setWidth 8]) ∧
  macBytes Config.groupAddress = [0x0B, 0x3C, 0x71, 0xE5, 0x20, 0xFF] ∧
  (∀ (s : State) (f : Frame), 14 ≤ f.length →
    (s.isControl f = true ↔
      (f.drop 12).take 2 = [0xB5, 0x9E] ∧
        (f.take 6 = macBytes s.unitAddress ∨ f.take 6 = macBytes Config.groupAddress)))

/-! ## Traffic and classification -/

/-- A line frame that passes intake and is no control frame takes the path of the station state at its reception
completion (R3): in AWAKE the L→S transit queue, or a count where the link is DOWN or the queue full (R115); in
RELEASING the hold store's class B (R79); in an away state the classifier. What follows of the part's own accord is
the start of an idle transmitter and the offer of a notice, the line arbiter choosing before the offer (DEDUCED, log
entry 7). -/
def Obligations.LineTrafficTakesThePathOfTheState : Prop :=
  (∀ (s : State) (f : Frame), s.Settled → s.Receives .line → intakeOk f = true → s.isControl f = false →
    (s.ctx.station = .awake → s.station.linkUp = false →
      exec (.lineFrameReceived f) s = .next ((s.takenIn .line).countLinkDown .station 1)) ∧
    (s.ctx.station = .awake → s.station.linkUp = true → 4 ≤ s.transit.toStation.length →
      exec (.lineFrameReceived f) s = .next ((s.takenIn .line).countTransitDrop .station)) ∧
    (s.ctx.station = .awake → s.station.linkUp = true → s.transit.toStation.length < 4 →
      exec (.lineFrameReceived f) s = .next
        (((s.takenIn .line).setTransit { s.transit with toStation := s.transit.toStation ++ [f] }).setStation
          { s.station with tx := some (s.station.tx.getD .transit) })) ∧
    (s.ctx.station = .releasing →
      exec (.lineFrameReceived f) s = .next
        ((s.takenIn .line).offerFrame .b .backlog f).settleOffer.settleLine) ∧
    (s.ctx.station.away = true →
      exec (.lineFrameReceived f) s = .next
        ((s.takenIn .line).classify f).settleLine.settleOffer.settleLine)) ∧
  [StationState.awake, .dozing, .asleep, .waking, .unresponsive, .releasing].map StationState.away =
    [false, true, true, true, true, false]

/-- Station traffic joins the S→L transit queue in every station state, or is counted at the line port where its link
is DOWN or the queue full (R116). The two counts advance the named counter of the named port and nothing else (R124). -/
def Obligations.StationTrafficCrossesToTheLine : Prop :=
  (∀ (s : State) (f : Frame), s.Settled → s.Receives .station → intakeOk f = true → s.isControl f = false →
    (s.line.linkUp = false →
      exec (.stationFrameReceived f) s = .next ((s.takenIn .station).countLinkDown .line 1)) ∧
    (s.line.linkUp = true → 4 ≤ s.transit.toLine.length →
      exec (.stationFrameReceived f) s = .next ((s.takenIn .station).countTransitDrop .line)) ∧
    (s.line.linkUp = true → s.transit.toLine.length < 4 →
      exec (.stationFrameReceived f) s = .next
        (((s.takenIn .station).setTransit { s.transit with toLine := s.transit.toLine ++ [f] }).setLine
          { s.line with tx := some (s.line.tx.getD .transit) }))) ∧
  (∀ s : State,
    let drop := fun c : PortCounters => { c with transitDrops := c.transitDrops + 1 }
    let down := fun c : PortCounters => { c with linkDownDiscards := c.linkDownDiscards + 1 }
    s.countTransitDrop .line = s.setLine { s.line with counters := drop s.line.counters } ∧
    s.countTransitDrop .station = s.setStation { s.station with counters := drop s.station.counters } ∧
    s.countLinkDown .line 1 = s.setLine { s.line with counters := down s.line.counters } ∧
    s.countLinkDown .station 1 = s.setStation { s.station with counters := down s.station.counters })

/-- A frame that fails its length or its FCS is an intake error of its port, and nothing else changes (R112); the FCS
is that of R112, placed least significant byte first, whose check value is CBF43926 hex, placed as 26 39 F4 CB. -/
def Obligations.IntakeErrorsStopAtThePort : Prop :=
  (∀ (s : State) (f : Frame), s.Settled → intakeOk f = false →
    (s.Receives .line → exec (.lineFrameReceived f) s = .next
      (s.setLine { s.line with
        rx := none
        counters := { s.line.counters with intakeErrors := s.line.counters.intakeErrors + 1 } })) ∧
    (s.Receives .station → exec (.stationFrameReceived f) s = .next
      (s.setStation { s.station with
        rx := none
        counters := { s.station.counters with intakeErrors := s.station.counters.intakeErrors + 1 } }))) ∧
  (∀ f : Frame, intakeOk f = true ↔
    64 ≤ f.length ∧ f.length ≤ 1522 ∧ f.drop (f.length - 4) = fcsBytes (f.take (f.length - 4))) ∧
  fcs [0x31, 0x32, 0x33, 0x34, 0x35, 0x36, 0x37, 0x38, 0x39] = 0xCBF43926#32 ∧
  fcsBytes [0x31, 0x32, 0x33, 0x34, 0x35, 0x36, 0x37, 0x38, 0x39] = [0x26, 0x39, 0xF4, 0xCB] ∧
  (∀ (l : List Byte) (b : Byte),
    ~~~fcs (l ++ [b]) = fcsShifts 8 (~~~fcs l ^^^ b.setWidth 32)) ∧
  ~~~fcs [] = 0xFFFFFFFF#32 ∧
  (∀ l : List Byte, fcsBytes l = [0, 8, 16, 24].map fun k => (fcs l >>> k).setWidth 8) ∧
  (∀ r : Word32, fcsShifts 0 r = r) ∧
  (∀ (n : Nat) (r : Word32),
    fcsShifts (n + 1) r = fcsShifts n (if r.getLsbD 0 then (r >>> 1) ^^^ 0xEDB88320#32 else r >>> 1))

/-- The first entry in index order that matches governs the classification event: its match count is advanced, its
disposition is carried out, and its wake decision comes last; where none matches, the active profile's default
disposition is carried out and counted (R35 to R38). -/
def Obligations.FirstMatchingRuleGoverns : Prop :=
  (∀ (s : State) (f : Frame) (i : Nat) (e : ActiveEntry) (r : RuleRecord),
    s.rules.active[i]? = some e → e.record = some r →
    r.matchesFrame s.activeProfile.sets (destClass s.ctx.address f) f = true →
    (∀ (j : Nat) (e' : ActiveEntry) (r' : RuleRecord), j < i → s.rules.active[j]? = some e' →
      e'.record = some r' → r'.matchesFrame s.activeProfile.sets (destClass s.ctx.address f) f = false) →
    let u := s.setRules
      { s.rules with active := s.rules.active.set i { record := some r, count := e.count + 1 } }
    let v := match r.disposition with
      | .discard => u
      | .hold c => u.offerFrame (.ofIndex c) (.rule i) f
      | .answer t => u.compose f t
      | .answerHold t c => (u.compose f t).offerFrame (.ofIndex c) (.rule i) f
    s.classify f = if r.wake then v.wakeDecision .ruleWake else v) ∧
  (∀ (s : State) (f : Frame),
    (∀ (e : ActiveEntry) (r : RuleRecord), e ∈ s.rules.active → e.record = some r →
      r.matchesFrame s.activeProfile.sets (destClass s.ctx.address f) f = false) →
    (s.activeProfile.defaultDisposition = .discard →
      s.classify f = s.setRules { s.rules with unmatchedDiscarded := s.rules.unmatchedDiscarded + 1 }) ∧
    (∀ c, s.activeProfile.defaultDisposition = .hold c →
      s.classify f = (s.setRules { s.rules with unmatchedHeld := s.rules.unmatchedHeld + 1 }).offerFrame
        (.ofIndex c) .byDefault f)) ∧
  [0, 1, 2, 3].map HoldClass.ofIndex = [.c0, .c1, .c2, .c3]

/-- A rule matches on exactly the five conditions of R33; the destination class is that of R27 and the guard admits it
as R28 says; the selected bytes are those of R29, in ascending order of offset. -/
def Obligations.MatchingIsTheFiveConditions : Prop :=
  (∀ (r : RuleRecord) (sets : BitVec 4) (d : DestClass) (f : Frame),
    r.matchesFrame sets d f = true ↔
      r.sets &&& sets ≠ 0 ∧
      (r.guard = .any ∨ (r.guard = .broadcast ∧ d = .broadcast) ∨ (r.guard = .group ∧ d = .group) ∨
        (r.guard = .toStation ∧ d = .toStation) ∨ (r.guard = .unicastOther ∧ d = .unicastOther)) ∧
      (r.minLength = 0 ∨ r.minLength ≤ f.length) ∧
      r.windowOffset + r.mask.length ≤ f.length ∧
      r.test.succeeds (r.selected f) = true) ∧
  (∀ (r : RuleRecord) (f : Frame), r.windowOffset + r.mask.length ≤ f.length →
    r.selected f = r.offsets.map (byteAt f)) ∧
  (∀ r : RuleRecord, r.offsets.Pairwise (· < ·) ∧
    ∀ offset, offset ∈ r.offsets ↔ ∃ k, r.mask[k]? = some true ∧ offset = r.windowOffset + k) ∧
  (∀ (a : Option Mac) (f : Frame), 6 ≤ f.length →
    macBytes (macAt f 0) = f.take 6 ∧
    destClass a f =
      if f.take 6 = List.replicate 6 0xFF then .broadcast
      else if (byteAt f 0).getLsbD 0 then .group
      else if a = some (macAt f 0) then .toStation
      else .unicastOther)

/-- The signature of R30: the register starts at FFFF hex, each byte is taken in two stages, and the three check values
and the steps of the second are those of the rule's tables. -/
def Obligations.SignatureIsTheCheckOfR30 : Prop :=
  signatureOf [] = 0xFFFF#16 ∧
  (∀ (l : List Byte) (b : Byte),
    signatureOf (l ++ [b]) = signatureShifts 8 (signatureOf l ^^^ (b.setWidth 16 <<< 8))) ∧
  (∀ r : Word16, signatureShifts 0 r = r) ∧
  (∀ (n : Nat) (r : Word16),
    signatureShifts (n + 1) r =
      signatureShifts n (if r.getLsbD 15 then (r <<< 1) ^^^ 0x1021#16 else r <<< 1)) ∧
  signatureOf [0x00] = 0xE1F0#16 ∧
  signatureOf [0x41] = 0xB915#16 ∧
  signatureOf [0x31, 0x32, 0x33, 0x34, 0x35, 0x36, 0x37, 0x38, 0x39] = 0x29B1#16 ∧
  0xFFFF#16 ^^^ ((0x41#8).setWidth 16 <<< 8) = 0xBEFF#16 ∧
  (List.range 8).map (fun n => signatureShifts (n + 1) 0xBEFF#16) =
    [0x6DDF#16, 0xDBBE#16, 0xA75D#16, 0x5E9B#16, 0xBD36#16, 0x6A4D#16, 0xD49A#16, 0xB915#16] ∧
  (List.range 8).map (fun n => (signatureShifts n 0xBEFF#16).getLsbD 15) =
    [true, false, true, true, false, true, false, true]

/-- The tests of R31 and R32 on the selected bytes: SIGNATURE by the signature of the selected bytes alone, EXACT byte
by byte with the expected list. -/
def Obligations.TestsJudgeTheSelectedBytes : Prop :=
  (∀ (r : RuleRecord) (f : Frame) (e : Word16), r.windowOffset + r.mask.length ≤ f.length →
    r.test = .signature e →
    (r.test.succeeds (r.selected f) = true ↔ signatureOf (r.offsets.map (byteAt f)) = e)) ∧
  (∀ (r : RuleRecord) (f : Frame) (l : List Byte), r.windowOffset + r.mask.length ≤ f.length →
    r.test = .exactly l → l.length = r.offsets.length →
    (r.test.succeeds (r.selected f) = true ↔
      ∀ (k offset : Nat) (b : Byte), r.offsets[k]? = some offset → l[k]? = some b → byteAt f offset = b)) ∧
  (∀ (r : RuleRecord) (f g : Frame), r.windowOffset + r.mask.length ≤ f.length →
    r.windowOffset + r.mask.length ≤ g.length → (∀ offset ∈ r.offsets, byteAt f offset = byteAt g offset) →
    r.test.succeeds (r.selected f) = r.test.succeeds (r.selected g)) ∧
  (∀ r : RuleRecord, r.windowOffset = 12 →
    r.mask = [true, true] ++ List.replicate 17 false ++ [true] → r.offsets = [12, 13, 31])

/-- Composition (R104, R105): an undefined template, a substitution that cannot supply its bytes (TRIGGER_BYTES past
the end, or an unknown STATION_ADDRESS) and a full queue are each counted and queue nothing; otherwise one frame joins
the answer queue: the body closed with its FCS, in which every byte outside the substitutions is the body's and every
other byte is the source's of the last substitution that covers it, so that a later one overwrites an earlier. The
sources supply the bytes of R101: the trigger's 6 to 11, the station address, the unit address, and the trigger's from
the given offset. -/
def Obligations.CompositionQueuesOrCounts : Prop :=
  (∀ (s : State) (f : Frame) (i : Fin 16),
    (s.answers.templates.getD i.val none = none →
      s.compose f i = s.setAnswers { s.answers with undefinedTemplate := s.answers.undefinedTemplate + 1 }) ∧
    (∀ t, s.answers.templates.getD i.val none = some t →
      ((∃ sub ∈ t.substitutions, (sub.source = .stationAddress ∧ s.ctx.address = none) ∨
          ∃ off n, sub.source = .triggerBytes off n ∧ f.length < off + n) →
        s.compose f i = s.setAnswers { s.answers with shortTrigger := s.answers.shortTrigger + 1 }) ∧
      ((∀ sub ∈ t.substitutions, (sub.source = .stationAddress → s.ctx.address ≠ none) ∧
          ∀ off n, sub.source = .triggerBytes off n → off + n ≤ f.length) →
        (4 ≤ s.answers.queue.length →
          s.compose f i = s.setAnswers { s.answers with queueFull := s.answers.queueFull + 1 }) ∧
        (s.answers.queue.length < 4 → t.Fitting → 12 ≤ f.length →
          ∃ body : List Byte,
            s.compose f i = s.setAnswers { s.answers with queue := s.answers.queue ++ [body ++ fcsBytes body] } ∧
            body.length = t.body.length ∧
            (∀ k, (∀ sub ∈ t.substitutions, k < sub.target ∨ sub.target + sub.source.size ≤ k) →
              byteAt body k = byteAt t.body k) ∧
            (∀ before sub after k, t.substitutions = before ++ sub :: after → k < sub.source.size →
              (∀ x ∈ after, sub.target + k < x.target ∨ x.target + x.source.size ≤ sub.target + k) →
              byteAt body (sub.target + k) =
                match sub.source with
                | .triggerSource => byteAt f (6 + k)
                | .stationAddress => byteAt (macBytes (s.ctx.address.getD 0)) k
                | .unitAddress => byteAt (macBytes s.unitAddress) k
                | .triggerBytes off _ => byteAt f (off + k)))))) ∧
  Source.triggerSource.size = 6 ∧ Source.stationAddress.size = 6 ∧ Source.unitAddress.size = 6 ∧
  (∀ off n, (Source.triggerBytes off n).size = n) ∧
  (∀ (l : List Byte) (k : Nat) (b : Byte), l[k]? = some b → byteAt l k = b)

/-! ## The hold store -/

/-- The four conditions of R56, and what an admission does when they hold: a descriptor at the tail with the next
serial, its blocks out of the pool, the class's account raised. When one fails, REFUSE_NEW refuses, counts and reports
(R57), and WAKE_ON_FULL does the same and then makes its wake decision (R59). Class B's configuration is fixed, with
the policy REFUSE_NEW (R54, R61). -/
def Obligations.AdmissionFollowsThePolicy : Prop :=
  (∀ (s : State) (c : HoldClass) (o : Origin) (f : Frame),
    let n := blocksFor f.length
    let account := s.hold.accounts.get c
    let fits := s.hold.list.length < 128 ∧ n ≤ s.hold.freeBlocks ∧ account.used + n ≤ (s.hold.configs.get c).quota ∧
      ∀ d rest, s.hold.list = d :: rest → (s.hold.nextSerial - d.serial).toNat ≤ 32767
    let refused :=
      (s.setHold { s.hold with
        accounts := s.hold.accounts.set c { account with refused := account.refused + 1 } }).raise (.holdPressure c 1 0)
    (fits → s.offerFrame c o f = s.setHold
      { s.hold with
        freeBlocks := s.hold.freeBlocks - n
        list := s.hold.list ++
          [{ serial := s.hold.nextSerial, cls := c, origin := o, arrival := s.time, state := .held, frame := f }]
        nextSerial := s.hold.nextSerial + 1
        accounts := s.hold.accounts.set c
          { account with used := account.used + n, held := account.held + 1, admitted := account.admitted + 1 } }) ∧
    (¬ fits → (s.hold.configs.get c).policy = .refuseNew → s.offerFrame c o f = refused) ∧
    (¬ fits → (s.hold.configs.get c).policy = .wakeOnFull →
      s.offerFrame c o f = refused.wakeDecision .fullWake)) ∧
  (∀ n : Nat, n ≤ 128 * blocksFor n ∧ 128 * blocksFor n < n + 128) ∧
  (∀ k : Configs, k.get .b = { quota := 384, lifetime := 0, policy := .refuseNew })

/-- EVICT_OLDEST (R58): the evictable frames are the HELD ones of the class, and each eviction takes the oldest. Where
the conditions hold after `k` evictions and after no fewer, those `k` frames are evicted and counted, the new frame is
admitted, and one report carries their number; where they hold after no number of evictions, nothing is evicted and
the frame is refused as under REFUSE_NEW. The conditions, the admission and the refusal are those of R56 and R57. -/
def Obligations.EvictionTakesTheFewestOldest : Prop :=
  (∀ (s : State) (c : HoldClass) (o : Origin) (f : Frame),
    (s.hold.configs.get c).policy = .evictOldest →
    let n := blocksFor f.length
    let candidates := s.hold.list.filter fun d => d.state == .held && d.cls == c
    let after : Nat → HoldStore := fun k => (fun h => h.removeFirst (Descriptor.evictable c) .evicted)^[k] s.hold
    (∀ k, 1 ≤ k → k ≤ candidates.length → (after k).fits c n = true → (∀ j, j < k → (after j).fits c n = false) →
      s.offerFrame c o f =
        (s.setHold ((after k).accept c o f s.time)).raise (.holdPressure c 0 (BitVec.ofNat 32 k))) ∧
    ((∀ k, k ≤ candidates.length → (after k).fits c n = false) →
      s.offerFrame c o f = (s.setHold (s.hold.refuse c)).raise (.holdPressure c 1 0))) ∧
  (∀ (h : HoldStore) (c : HoldClass) (before after : List Descriptor) (d : Descriptor),
    h.list = before ++ d :: after → d.state = .held → d.cls = c →
    (∀ x ∈ before, ¬ (x.state = .held ∧ x.cls = c)) →
    h.removeFirst (Descriptor.evictable c) .evicted =
      { h with
        list := before ++ after
        freeBlocks := h.freeBlocks + blocksFor d.frame.length
        accounts := h.accounts.set c
          { h.accounts.get c with
            used := (h.accounts.get c).used - blocksFor d.frame.length
            held := (h.accounts.get c).held - 1
            evicted := (h.accounts.get c).evicted + 1 } }) ∧
  (∀ (h : HoldStore) (c : HoldClass) (o : Origin) (f : Frame) (now : Word32) (n : Nat),
    let account := h.accounts.get c
    (h.fits c n = true ↔
      h.list.length < 128 ∧ n ≤ h.freeBlocks ∧ account.used + n ≤ (h.configs.get c).quota ∧
        ∀ d rest, h.list = d :: rest → (h.nextSerial - d.serial).toNat ≤ 32767) ∧
    h.accept c o f now =
      { h with
        freeBlocks := h.freeBlocks - blocksFor f.length
        list := h.list ++ [{ serial := h.nextSerial, cls := c, origin := o, arrival := now, state := .held, frame := f }]
        nextSerial := h.nextSerial + 1
        accounts := h.accounts.set c
          { account with
            used := account.used + blocksFor f.length, held := account.held + 1, admitted := account.admitted + 1 } } ∧
    h.refuse c = { h with accounts := h.accounts.set c { account with refused := account.refused + 1 } })

/-- EXPIRY (R63, R64): a HELD frame whose age has reached its class's lifetime leaves the hold list, its blocks return,
its class's account follows, and what becomes possible by it happens in the same event: the end of a release, and the
offer of its notice. A frame that is DELIVERING, has no lifetime, or is younger than its lifetime does not expire. -/
def Obligations.ExpiryRemovesTheFrame : Prop :=
  (∀ (s : State) (before after : List Descriptor) (d : Descriptor), s.Settled → s.pins.resetn = true →
    s.hold.list = before ++ d :: after → (∀ x ∈ before, x.serial ≠ d.serial) →
    d.state = .held → (s.hold.configs.get d.cls).lifetime ≠ 0 →
    (s.hold.configs.get d.cls).lifetime * 1000 ≤ (s.time - d.arrival).toNat →
    exec (.expiry d.serial) s = .next
      (s.setHold { s.hold with
        list := before ++ after
        freeBlocks := s.hold.freeBlocks + blocksFor d.frame.length
        accounts := s.hold.accounts.set d.cls
          { s.hold.accounts.get d.cls with
            used := (s.hold.accounts.get d.cls).used - blocksFor d.frame.length
            held := (s.hold.accounts.get d.cls).held - 1
            expired := (s.hold.accounts.get d.cls).expired + 1 } }).settleReleaseEnd.settleOffer.settleLine) ∧
  (∀ (s : State) (serial : Word16),
    (∀ d ∈ s.hold.list, d.serial = serial → d.state = .delivering ∨ (s.hold.configs.get d.cls).lifetime = 0 ∨
      (s.time - d.arrival).toNat < (s.hold.configs.get d.cls).lifetime * 1000) →
    exec (.expiry serial) s = .next s)

/-- CLASS_WRITE (R67, R68): a class other than 0 to 3 is refused with BAD_INDEX, a quota above 384 or an unknown policy
with BAD_VALUE; otherwise the three fields are replaced, every HELD frame of the class whose age has reached the new
lifetime expires in the same event, and the end of a release and the offer of a notice follow. -/
def Obligations.ClassWriteReplacesAndExpires : Prop :=
  ∀ (s : State) (h : CmdHeader) (b : Binding) (cls : Byte) (quota lifetime : Word16) (policy : Byte),
    s.Settled → s.Executes h b →
    (4 ≤ cls.toNat → exec (.classWrite h cls quota lifetime policy) s = .next (s.executed h .classWrite b .badIndex [])) ∧
    (cls.toNat ≤ 3 → 384 < quota.toNat ∨ 3 ≤ policy.toNat →
      exec (.classWrite h cls quota lifetime policy) s = .next (s.executed h .classWrite b .badValue [])) ∧
    (∀ (c : HoldClass) (p : Policy), c ≠ .b → cls = c.code → quota.toNat ≤ 384 → policy = p.code →
      let expiring := fun d : Descriptor => decide (d.cls = c) && decide (d.state = .held) &&
        decide (lifetime.toNat ≠ 0) && decide (lifetime.toNat * 1000 ≤ (s.time - d.arrival).toNat)
      let gone := s.hold.list.filter expiring
      let blocks := (gone.map fun d => blocksFor d.frame.length).sum
      exec (.classWrite h cls quota lifetime policy) s = .next
        ((s.executed h .classWrite b .ok []).setHold { s.hold with
          configs := s.hold.configs.set c { quota := quota.toNat, lifetime := lifetime.toNat, policy := p }
          list := s.hold.list.filter fun d => !expiring d
          freeBlocks := s.hold.freeBlocks + blocks
          accounts := s.hold.accounts.set c
            { s.hold.accounts.get c with
              used := (s.hold.accounts.get c).used - blocks
              held := (s.hold.accounts.get c).held - gone.length
              expired := (s.hold.accounts.get c).expired + BitVec.ofNat 32 gone.length } }).settleReleaseEnd.settleOffer)

/-- HOLD_PURGE (R65, R66): ALL, CLASS c and UP_TO s select; every selected HELD descriptor leaves, its blocks return,
its class's account follows; the response carries their number, and the end of a release and the offer of a notice
follow. An unknown selection is refused with BAD_VALUE, a class that is none of the five with BAD_INDEX. -/
def Obligations.PurgeRemovesTheSelectedHeld : Prop :=
  ∀ (s : State) (h : CmdHeader) (b : Binding) (selection cls : Byte) (serial : Word16),
    s.Settled → s.Executes h b →
    let purged := fun selected : Descriptor → Bool =>
      let gone := s.hold.list.filter fun d => decide (d.state = .held) && selected d
      let goneOf := fun c : HoldClass => gone.filter fun d => decide (d.cls = c)
      ∃ accounts : Accounts,
        (∀ c : HoldClass, accounts.get c =
          { s.hold.accounts.get c with
            used := (s.hold.accounts.get c).used - ((goneOf c).map fun d => blocksFor d.frame.length).sum
            held := (s.hold.accounts.get c).held - (goneOf c).length
            purged := (s.hold.accounts.get c).purged + BitVec.ofNat 32 (goneOf c).length }) ∧
        exec (.holdPurge h selection cls serial) s = .next
          ((s.executed h .holdPurge b .ok [byteOf gone.length]).setHold { s.hold with
            list := s.hold.list.filter fun d => !(decide (d.state = .held) && selected d)
            freeBlocks := s.hold.freeBlocks + (gone.map fun d => blocksFor d.frame.length).sum
            accounts := accounts }).settleReleaseEnd.settleOffer
    (selection = 0 → purged fun _ => true) ∧
    (∀ c : HoldClass, selection = 1 → cls = c.code → purged fun d => decide (d.cls = c)) ∧
    (selection = 1 → 5 ≤ cls.toNat →
      exec (.holdPurge h selection cls serial) s = .next (s.executed h .holdPurge b .badIndex [])) ∧
    (∀ head rest, selection = 2 → s.hold.list = head :: rest → (serial - head.serial).toNat ≤ 32767 →
      purged fun d => decide ((d.serial - head.serial).toNat ≤ (serial - head.serial).toNat)) ∧
    (∀ head rest, selection = 2 → s.hold.list = head :: rest → 32768 ≤ (serial - head.serial).toNat →
      purged fun _ => false) ∧
    (selection = 2 → s.hold.list = [] → purged fun _ => false) ∧
    (3 ≤ selection.toNat →
      exec (.holdPurge h selection cls serial) s = .next (s.executed h .holdPurge b .badValue []))

/-- CLASS_READ and HOLD_LIST (R157, R158) answer what they name and change nothing but the session: a class's
configuration and account, and up to 24 summaries of 12 bytes with the number that follow them, from the head or from
the first descriptor that lies as far beyond the head as the given serial. The codes of class, origin, state and policy
are those of R48, R145 and R146. -/
def Obligations.HoldStoreReadsAnswer : Prop :=
  (∀ (s : State) (h : CmdHeader) (b : Binding), s.Settled → s.Executes h b →
    (∀ (cls : Byte) (c : HoldClass), cls = c.code →
      exec (.classRead h cls) s = .next (s.executed h .classRead b .ok
        ([cls] ++ nat16 (s.hold.configs.get c).quota ++ nat16 (s.hold.configs.get c).lifetime ++
          [(s.hold.configs.get c).policy.code] ++ nat16 (s.hold.accounts.get c).used ++
          [byteOf (s.hold.accounts.get c).held] ++ be32 (s.hold.accounts.get c).admitted ++
          be32 (s.hold.accounts.get c).delivered ++ be32 (s.hold.accounts.get c).expired ++
          be32 (s.hold.accounts.get c).evicted ++ be32 (s.hold.accounts.get c).refused ++
          be32 (s.hold.accounts.get c).purged))) ∧
    (∀ cls : Byte, 5 ≤ cls.toNat →
      exec (.classRead h cls) s = .next (s.executed h .classRead b .badIndex [])) ∧
    (∀ (start : Byte) (serial : Word16),
      let listed := fun found : List Descriptor =>
        exec (.holdList h start serial) s = .next (s.executed h .holdList b .ok
          ([byteOf (min 24 found.length)] ++ nat16 (found.length - 24) ++
            (found.take 24).flatMap fun d =>
              be16 d.serial ++ [d.cls.code, d.state.code, d.origin.code, 0] ++ nat16 d.frame.length ++
                be32 (s.time - d.arrival)))
      (start = 0 → listed s.hold.list) ∧
      (start = 1 → s.hold.list = [] → listed []) ∧
      (∀ head rest, start = 1 → s.hold.list = head :: rest →
        (32768 ≤ (serial - head.serial).toNat → listed s.hold.list) ∧
        (∀ before after, (serial - head.serial).toNat ≤ 32767 → s.hold.list = before ++ after →
          (∀ d ∈ before, (d.serial - head.serial).toNat < (serial - head.serial).toNat) →
          (∀ d tail, after = d :: tail → (serial - head.serial).toNat ≤ (d.serial - head.serial).toNat) →
          listed after)) ∧
      (2 ≤ start.toNat → exec (.holdList h start serial) s = .next (s.executed h .holdList b .badValue [])))) ∧
  [HoldClass.c0, .c1, .c2, .c3, .b].map HoldClass.code = [0, 1, 2, 3, 4] ∧
  (∀ i : Nat, i < 32 → (Origin.rule i).code.toNat = i) ∧ Origin.byDefault.code = 32 ∧ Origin.backlog.code = 33 ∧
  DescState.held.code = 0 ∧ DescState.delivering.code = 1 ∧
  [Policy.refuseNew, .evictOldest, .wakeOnFull].map Policy.code = [0, 1, 2]

/-! ## Rules, profiles, templates -/

/-- RULE_STAGE (R41, R131, R152), for every length that R130 permits. In the order of its checks: an index above 31 is
BAD_INDEX, an action above 2 BAD_VALUE; EMPTY and WITHDRAW take no record (BAD_LENGTH) and set the entry; RECORD is
refused for its length, its list length, or its fields, and otherwise sets the entry to the record. The response
carries the index and the new condition, 0 NO_CHANGE, 1 STAGED_RECORD, 2 STAGED_EMPTY; nothing else changes but the
session. -/
def Obligations.RuleStageSetsOneEntry : Prop :=
  (∀ (s : State) (h : CmdHeader) (b : Binding) (index action : Byte) (record : List Byte),
    s.Settled → s.Executes h b → record = [] ∨ (23 ≤ record.length ∧ record.length ≤ 39) →
    let staged := fun e : StagedEntry =>
      exec (.ruleStage h index action record) s = .next
        ((s.executed h .ruleStage b .ok [index, e.code]).setRules
          { s.rules with staged := s.rules.staged.set index.toNat e })
    let refused := fun x : Status =>
      exec (.ruleStage h index action record) s = .next (s.executed h .ruleStage b x [])
    (32 ≤ index.toNat → refused .badIndex) ∧
    (index.toNat < 32 → 3 ≤ action.toNat → refused .badValue) ∧
    (index.toNat < 32 → action = 1 → (record = [] → staged .stagedEmpty) ∧ (record ≠ [] → refused .badLength)) ∧
    (index.toNat < 32 → action = 2 → (record = [] → staged .noChange) ∧ (record ≠ [] → refused .badLength)) ∧
    (index.toNat < 32 → action = 0 →
      (record = [] → refused .badLength) ∧
      (record ≠ [] → 16 < (byteAt record 22).toNat ∨ (byteAt record 7 = 0 ∧ byteAt record 22 ≠ 0) →
        refused .badValue) ∧
      (record ≠ [] → (byteAt record 22).toNat ≤ 16 → (byteAt record 7 = 0 → byteAt record 22 = 0) →
        (record.length ≠ 23 + (byteAt record 22).toNat → refused .badLength) ∧
        (record.length = 23 + (byteAt record 22).toNat →
          (RuleRecord.read record = none → refused .badValue) ∧
          (∀ r, RuleRecord.read record = some r → staged (.stagedRecord r))))) ∧
    (∀ r : RuleRecord, index.toNat < 32 → action = 0 → r.Consistent → record = r.bytes → staged (.stagedRecord r))) ∧
  StagedEntry.noChange.code = 0 ∧ (∀ r, (StagedEntry.stagedRecord r).code = 1) ∧ StagedEntry.stagedEmpty.code = 2

/-- A rule record is read bit by bit as R144 lays it out: reading gives a record exactly when the record is one that
R25 and R26 allow and every field of it stands where the layout puts it; the class and the template are read only
where the disposition has them, the expected signature only under SIGNATURE. And the bytes of RULE_READ read back, with
0 for the class, the template and the expected signature where they are absent (R143). -/
def Obligations.RuleRecordIsReadBitByBit : Prop :=
  (∀ (l : List Byte) (r : RuleRecord),
    RuleRecord.read l = some r ↔
      r.Consistent ∧
      byteAt l 0 = r.sets.setWidth 8 ∧
      byteAt l 1 = (match r.guard with
        | .any => 0 | .toStation => 1 | .unicastOther => 2 | .group => 3 | .broadcast => 4) ∧
      natAt l 2 2 = r.minLength ∧
      natAt l 4 2 = r.windowOffset ∧
      (byteAt l 6).toNat = r.mask.length ∧
      (match r.test with
        | .signature e => byteAt l 7 = 0 ∧ word16At l 20 = e
        | .exactly bytes => byteAt l 7 = 1 ∧ l.drop 23 = bytes) ∧
      (∀ k, k < 64 → (byteAt l (8 + k / 8)).getLsbD (7 - k % 8) = r.mask.getD k false) ∧
      (match r.disposition with
        | .discard => byteAt l 16 = 0
        | .hold c => byteAt l 16 = 1 ∧ (byteAt l 17).toNat = c.val
        | .answer t => byteAt l 16 = 2 ∧ (byteAt l 18).toNat = t.val
        | .answerHold t c => byteAt l 16 = 3 ∧ (byteAt l 18).toNat = t.val ∧ (byteAt l 17).toNat = c.val) ∧
      byteAt l 19 = boolByte r.wake) ∧
  (∀ r : RuleRecord, r.Consistent → RuleRecord.read r.bytes = some r ∧
    r.bytes.length = 23 + r.test.list.length ∧ byteAt r.bytes 22 = byteOf r.test.list.length ∧
    (match r.disposition with
      | .discard => byteAt r.bytes 17 = 0 ∧ byteAt r.bytes 18 = 0
      | .hold _ => byteAt r.bytes 18 = 0
      | .answer _ => byteAt r.bytes 17 = 0
      | .answerHold _ _ => True) ∧
    (∀ l, r.test = .exactly l → word16At r.bytes 20 = 0)) ∧
  (∀ e, (RuleTest.signature e).list = []) ∧ (∀ l, (RuleTest.exactly l).list = l)

/-- RULE_DISCARD (R42): every staged entry returns to NO_CHANGE, in every station state; the response is OK with the
number of entries that were staged, 0 to 32 of the table's 32; the active table and the match counts are not
affected. -/
def Obligations.RuleDiscardWithdrawsEveryEntry : Prop :=
  (∀ (s : State) (h : CmdHeader) (b : Binding), s.Settled → s.Executes h b →
    exec (.ruleDiscard h) s = .next
      ((s.executed h .ruleDiscard b .ok
        [byteOf (s.rules.staged.countP fun e => decide (e ≠ .noChange))]).setRules
        { s.rules with staged := s.rules.staged.map fun _ => .noChange })) ∧
  (∀ s : State, s.Capacities →
    s.rules.staged.countP (fun e => decide (e ≠ .noChange)) ≤ 32 ∧
    (byteOf (s.rules.staged.countP fun e => decide (e ≠ .noChange))).toNat =
      s.rules.staged.countP fun e => decide (e ≠ .noChange))

/-- RULE_COMMIT (R43): each staged entry replaces the active entry of its index, with a match count of 0; the others
keep theirs; every staged entry is NO_CHANGE afterwards; the response carries the number of entries applied. -/
def Obligations.RuleCommitAppliesTheStagedTable : Prop :=
  ∀ (s : State) (h : CmdHeader) (b : Binding), s.Settled → s.Executes h b → s.Capacities →
    ∃ active : List ActiveEntry,
      active.length = 32 ∧
      (∀ (i : Nat) (e : ActiveEntry), s.rules.active[i]? = some e →
        (s.rules.staged[i]? = some .noChange → active[i]? = some e) ∧
        (∀ r, s.rules.staged[i]? = some (.stagedRecord r) → active[i]? = some { record := some r, count := 0 }) ∧
        (s.rules.staged[i]? = some .stagedEmpty → active[i]? = some { record := none, count := 0 })) ∧
      exec (.ruleCommit h) s = .next
        ((s.executed h .ruleCommit b .ok
          [byteOf (s.rules.staged.countP fun e => decide (e ≠ .noChange))]).setRules
          { s.rules with active := active, staged := List.replicate 32 .noChange })

/-- PROFILE_WRITE (R9, R148, R154): an index above 3 is BAD_INDEX, a defined field above 1 BAD_VALUE; a defined record
whose fields are in range replaces the entry, any other is BAD_VALUE; an undefined one undefines the entry, but the
active record only in AWAKE, where the active profile becomes none (else WRONG_STATE). -/
def Obligations.ProfileWriteDefinesOrUndefines : Prop :=
  ∀ (s : State) (h : CmdHeader) (b : Binding) (index : Byte) (record : List Byte),
    s.Settled → s.Executes h b → record.length = 12 →
    let taken := fun ctx : Context =>
      exec (.profileWrite h index record) s = .next ((s.executed h .profileWrite b .ok []).setCtx ctx)
    let refused := fun x : Status =>
      exec (.profileWrite h index record) s = .next (s.executed h .profileWrite b x [])
    (4 ≤ index.toNat → refused .badIndex) ∧
    (index.toNat < 4 → 2 ≤ (byteAt record 0).toNat → refused .badValue) ∧
    (index.toNat < 4 → byteAt record 0 = 1 →
      (Profile.read record = none → refused .badValue) ∧
      (∀ p, Profile.read record = some p →
        taken { s.ctx with profiles := s.ctx.profiles.set index.toNat (some p) })) ∧
    (index.toNat < 4 → byteAt record 0 = 0 →
      ((∀ i, s.ctx.active = .record i → i.val ≠ index.toNat) →
        taken { s.ctx with profiles := s.ctx.profiles.set index.toNat none }) ∧
      (∀ i, s.ctx.active = .record i → i.val = index.toNat →
        (s.ctx.station = .awake →
          taken { s.ctx with profiles := s.ctx.profiles.set index.toNat none, active := .none }) ∧
        (s.ctx.station ≠ .awake → refused .wrongState)))

/-- A profile record is read as R145 lays it out, exactly when its fields are in the ranges of R5; and the 12 bytes of
PROFILE_READ read back, with 0 for the default class under DISCARD, for the pulse width under LEVEL and for the last byte
(R143). -/
def Obligations.ProfileRecordIsReadByItsLayout : Prop :=
  (∀ (l : List Byte) (p : Profile),
    Profile.read l = some p ↔
      p.InRange ∧
      byteAt l 1 = p.sets.setWidth 8 ∧
      (match p.defaultDisposition with
        | .discard => byteAt l 2 = 0
        | .hold c => byteAt l 2 = 1 ∧ (byteAt l 3).toNat = c.val) ∧
      (match p.wakeMode with
        | .pulse w => byteAt l 4 = 0 ∧ (byteAt l 5).toNat = w
        | .level => byteAt l 4 = 1) ∧
      (byteAt l 6).toNat = p.timeout ∧ (byteAt l 7).toNat = p.retries ∧ natAt l 8 2 = p.releaseDelay ∧
      byteAt l 10 = boolByte p.wakeOnLink) ∧
  (∀ p : Profile, p.InRange → Profile.read (profileBytes (some p)) = some p ∧
    (profileBytes (some p)).length = 12 ∧ byteAt (profileBytes (some p)) 0 = 1 ∧
    (p.defaultDisposition = .discard → byteAt (profileBytes (some p)) 3 = 0) ∧
    (p.wakeMode = .level → byteAt (profileBytes (some p)) 5 = 0) ∧ byteAt (profileBytes (some p)) 11 = 0)

/-- TEMPLATE_WRITE (R102, R131, R156), for every length that R130 permits: an index above 15 is BAD_INDEX, an action
above 1 BAD_VALUE; UNDEFINE takes no template (BAD_LENGTH) and undefines the entry; DEFINE is refused for its counts,
its length or its substitutions, and otherwise replaces the entry whole. Queued answers are not touched. -/
def Obligations.TemplateWriteReplacesTheEntry : Prop :=
  ∀ (s : State) (h : CmdHeader) (b : Binding) (index action : Byte) (template : List Byte),
    s.Settled → s.Executes h b → template = [] ∨ (63 ≤ template.length ∧ template.length ≤ 283) →
    let taken := fun t : Option Template =>
      exec (.templateWrite h index action template) s = .next
        ((s.executed h .templateWrite b .ok []).setAnswers
          { s.answers with templates := s.answers.templates.set index.toNat t })
    let refused := fun x : Status =>
      exec (.templateWrite h index action template) s = .next (s.executed h .templateWrite b x [])
    let length := natAt template 0 2
    let count := (byteAt template 2).toNat
    (16 ≤ index.toNat → refused .badIndex) ∧
    (index.toNat < 16 → 2 ≤ action.toNat → refused .badValue) ∧
    (index.toNat < 16 → action = 1 → (template = [] → taken none) ∧ (template ≠ [] → refused .badLength)) ∧
    (index.toNat < 16 → action = 0 →
      (template = [] → refused .badLength) ∧
      (template ≠ [] → 4 < count ∨ length < 60 ∨ 256 < length → refused .badValue) ∧
      (template ≠ [] → count ≤ 4 → 60 ≤ length → length ≤ 256 →
        (template.length ≠ 3 + 6 * count + length → refused .badLength) ∧
        (template.length = 3 + 6 * count + length →
          (Template.read template = none → refused .badValue) ∧
          (∀ t, Template.read template = some t → taken (some t))))) ∧
    (∀ t : Template, index.toNat < 16 → action = 0 → t.Fitting → template = t.bytes → taken (some t))

/-- A template is read as R146 lays it out: from bytes whose counts agree with their length, reading gives a template
exactly when R101 and R102 allow it and its body and each of its substitutions stand where the layout puts them,
length and trigger offset being read only under TRIGGER_BYTES. And the bytes of TEMPLATE_READ read back, headed by the
body's length and the count, with 0 for the length and the trigger offset of every other source (R143). -/
def Obligations.TemplateIsReadByItsLayout : Prop :=
  (∀ (l : List Byte) (t : Template), (byteAt l 2).toNat ≤ 4 → 60 ≤ natAt l 0 2 → natAt l 0 2 ≤ 256 →
    l.length = 3 + 6 * (byteAt l 2).toNat + natAt l 0 2 →
    (Template.read l = some t ↔
      t.Fitting ∧
      (byteAt l 2).toNat = t.substitutions.length ∧
      l.drop (3 + 6 * t.substitutions.length) = t.body ∧
      ∀ (i : Nat) (x : Substitution), t.substitutions[i]? = some x →
        natAt l (3 + 6 * i) 2 = x.target ∧
        match x.source with
        | .triggerSource => byteAt l (3 + 6 * i + 2) = 0
        | .stationAddress => byteAt l (3 + 6 * i + 2) = 1
        | .unitAddress => byteAt l (3 + 6 * i + 2) = 2
        | .triggerBytes off n =>
          byteAt l (3 + 6 * i + 2) = 3 ∧ (byteAt l (3 + 6 * i + 3)).toNat = n ∧ natAt l (3 + 6 * i + 4) 2 = off)) ∧
  (∀ t : Template, t.Fitting → Template.read t.bytes = some t ∧
    t.bytes.length = 3 + 6 * t.substitutions.length + t.body.length ∧
    natAt t.bytes 0 2 = t.body.length ∧ (byteAt t.bytes 2).toNat = t.substitutions.length ∧
    ∀ (i : Nat) (x : Substitution), t.substitutions[i]? = some x → (∀ off n, x.source ≠ .triggerBytes off n) →
      byteAt t.bytes (3 + 6 * i + 3) = 0 ∧ natAt t.bytes (3 + 6 * i + 4) 2 = 0)

/-- RULE_READ, PROFILE_READ and TEMPLATE_READ (R103, R153, R155, R156) answer the named entry and change nothing but
the session; an index out of range is BAD_INDEX, and then a table above 1 BAD_VALUE. -/
def Obligations.TableReadsAnswerTheEntry : Prop :=
  ∀ (s : State) (h : CmdHeader) (b : Binding), s.Settled → s.Executes h b → s.Capacities →
    (∀ table index : Byte,
      let answered := fun body : List Byte =>
        exec (.ruleRead h table index) s = .next (s.executed h .ruleRead b .ok ([table, index] ++ body))
      let refused := fun x : Status =>
        exec (.ruleRead h table index) s = .next (s.executed h .ruleRead b x [])
      (32 ≤ index.toNat → refused .badIndex) ∧
      (index.toNat < 32 → 2 ≤ table.toNat → refused .badValue) ∧
      (∀ e : ActiveEntry, table = 0 → s.rules.active[index.toNat]? = some e →
        (e.record = none → answered ([0] ++ be32 e.count)) ∧
        (∀ r, e.record = some r → answered ([1] ++ be32 e.count ++ r.bytes))) ∧
      (table = 1 → s.rules.staged[index.toNat]? = some .noChange → answered [0, 0, 0, 0, 0]) ∧
      (∀ r, table = 1 → s.rules.staged[index.toNat]? = some (.stagedRecord r) → answered ([1, 0, 0, 0, 0] ++ r.bytes)) ∧
      (table = 1 → s.rules.staged[index.toNat]? = some .stagedEmpty → answered [2, 0, 0, 0, 0])) ∧
    (∀ index : Byte,
      (4 ≤ index.toNat → exec (.profileRead h index) s = .next (s.executed h .profileRead b .badIndex [])) ∧
      (∀ p, s.ctx.profiles[index.toNat]? = some p →
        exec (.profileRead h index) s = .next (s.executed h .profileRead b .ok ([index] ++ profileBytes p))) ∧
      (16 ≤ index.toNat → exec (.templateRead h index) s = .next (s.executed h .templateRead b .badIndex [])) ∧
      (s.answers.templates[index.toNat]? = some none →
        exec (.templateRead h index) s = .next (s.executed h .templateRead b .ok [index, 0])) ∧
      (∀ t, s.answers.templates[index.toNat]? = some (some t) →
        exec (.templateRead h index) s = .next (s.executed h .templateRead b .ok ([index, 1] ++ t.bytes)))) ∧
    profileBytes none = [0, 0, 0, 0, 0, 0, 0, 0, 0, 0, 0, 0]

/-- COUNTERS_READ (R146, R162, R175): the group, the number of its counters and their values, as they stand at the
event, its own frame's reception counted (DEDUCED, log entry 19); with the clear flag every counter of PORTS, RULES or
ANSWERS is then 0. A group above 3, a flag above 1, and a clear of CLASSES are BAD_VALUE. -/
def Obligations.CountersReadReportsAndClears : Prop :=
  ∀ (s : State) (h : CmdHeader) (b : Binding) (group clear : Byte), s.Settled → s.Executes h b → s.Capacities →
    let values := fun c : PortCounters =>
      [c.received, c.intakeErrors, c.controlConsumed, c.transmitted, c.transitDrops, c.linkDownDiscards]
    let answer := fun counters : List Word32 =>
      s.executed h .countersRead b .ok ([group, byteOf counters.length] ++ counters.flatMap be32)
    let ports := values s.line.counters.consumed ++ values s.station.counters ++ [s.station.releaseCut]
    let rules := s.rules.active.map ActiveEntry.count ++ [s.rules.unmatchedHeld, s.rules.unmatchedDiscarded]
    let classes := [HoldClass.c0, .c1, .c2, .c3, .b].flatMap fun c =>
      let a := s.hold.accounts.get c
      [a.admitted, a.delivered, a.expired, a.evicted, a.refused, a.purged]
    let answers := [s.answers.sent, s.answers.queueFull, s.answers.shortTrigger, s.answers.undefinedTemplate]
    let out := exec (.countersRead h group clear) s
    ports.length = 13 ∧ rules.length = 34 ∧ classes.length = 30 ∧ answers.length = 4 ∧
    (4 ≤ group.toNat ∨ 2 ≤ clear.toNat ∨ (group = 2 ∧ clear = 1) →
      out = .next (s.executed h .countersRead b .badValue [])) ∧
    (clear = 0 →
      (group = 0 → out = .next (answer ports)) ∧ (group = 1 → out = .next (answer rules)) ∧
      (group = 2 → out = .next (answer classes)) ∧ (group = 3 → out = .next (answer answers))) ∧
    (clear = 1 →
      (group = 0 → out = .next
        (((answer ports).setLine { (answer ports).line with
            counters := { received := 0, intakeErrors := 0, controlConsumed := 0, transmitted := 0,
                          transitDrops := 0, linkDownDiscards := 0 } }).setStation
          { s.station with
            counters := { received := 0, intakeErrors := 0, controlConsumed := 0, transmitted := 0,
                          transitDrops := 0, linkDownDiscards := 0 }
            releaseCut := 0 })) ∧
      (group = 1 → out = .next
        ((answer rules).setRules
          { s.rules with
            active := s.rules.active.map fun e => { e with count := 0 }
            unmatchedHeld := 0
            unmatchedDiscarded := 0 })) ∧
      (group = 3 → out = .next
        ((answer answers).setAnswers
          { s.answers with sent := 0, queueFull := 0, shortTrigger := 0, undefinedTemplate := 0 })))

/-! ## Waking the station -/

/-- The active profile, changes of state, attempts and wake decisions. The active profile is the named record as it
stands, or the built-in profile of R6 (R7); where none is active the built-in values stand in, which no run reads
(DESIGN CHOICE, log entry 9). A change of state raises STATE_CHANGE with the state left, the state
entered and the cause (R24). An attempt asserts the line and reads its terms from the active profile (R94); a sequence
begins with attempt 1 (R93). A wake decision has no effect in AWAKE, RELEASING and WAKING, sets the wake pending flag
in DOZING, begins a sequence in ASLEEP, and in UNRESPONSIVE only for the manager (R88 to R92). -/
def Obligations.WakeDecisionFollowsTheState : Prop :=
  (∀ s : State,
    let builtIn : Profile :=
      { sets := 0, defaultDisposition := .hold 3, wakeMode := .level, timeout := 10, retries := 2, releaseDelay := 0
        wakeOnLink := false }
    (∀ (i : Fin 4) (p : Profile), s.ctx.active = .record i → s.ctx.profiles[i.val]? = some (some p) →
      s.activeProfile = p) ∧
    (s.ctx.active = .builtIn → s.activeProfile = builtIn) ∧
    (s.ctx.active = .none → s.activeProfile = builtIn)) ∧
  (∀ (s : State) (entered : StationState) (cause : Cause),
    s.changeState entered cause =
      (s.setCtx { s.ctx with station := entered }).raise (.stateChange s.ctx.station entered cause)) ∧
  (∀ (s : State) (n : Nat),
    let started := fun pulse : Timer => s.startAttempt n = s.setWake
      { line := .asserted, phase := .attempt, attempt := n
        terms := some { mode := s.activeProfile.wakeMode, timeout := s.activeProfile.timeout,
                        retries := s.activeProfile.retries }
        attemptTimer := .running (s.activeProfile.timeout * 1000), pulseTimer := pulse }
    (∀ w, s.activeProfile.wakeMode = .pulse w → started (.running w)) ∧
    (s.activeProfile.wakeMode = .level → started .stopped)) ∧
  (∀ (s : State) (cause : Cause),
    (s.ctx.station = .awake ∨ s.ctx.station = .releasing ∨ s.ctx.station = .waking → s.wakeDecision cause = s) ∧
    (s.ctx.station = .dozing → s.wakeDecision cause = s.setCtx { s.ctx with wakePending := true }) ∧
    (s.ctx.station = .asleep → s.wakeDecision cause = (s.changeState .waking cause).startAttempt 1) ∧
    (s.ctx.station = .unresponsive →
      (cause = .managerWake → s.wakeDecision cause = (s.changeState .waking cause).startAttempt 1) ∧
      (cause ≠ .managerWake → s.wakeDecision cause = s)))

/-- WAKE (R160): refused with WRONG_STATE and the station state in AWAKE, WAKING and RELEASING; in DOZING it sets the
wake pending flag; in ASLEEP and UNRESPONSIVE it begins a sequence, and the response carries WAKING. -/
def Obligations.WakeCommandIsTheManagersDecision : Prop :=
  ∀ (s : State) (h : CmdHeader) (b : Binding), s.Settled → s.Executes h b →
    (s.ctx.station = .awake ∨ s.ctx.station = .waking ∨ s.ctx.station = .releasing →
      exec (.wake h) s = .next (s.executed h .wake b .wrongState [s.ctx.station.code])) ∧
    (s.ctx.station = .dozing → exec (.wake h) s = .next
      ((s.executed h .wake b .ok [StationState.dozing.code]).setCtx { s.ctx with wakePending := true })) ∧
    (s.ctx.station = .asleep ∨ s.ctx.station = .unresponsive → exec (.wake h) s = .next
      (((s.executed h .wake b .ok [StationState.waking.code]).changeState .waking .managerWake).startAttempt
        1).settleOffer)

/-- PULSE_TIMER_EXPIRY releases the line and nothing else (R95). ATTEMPT_TIMER_EXPIRY ends the attempt: a rest of
100 ms while its terms allow another, else UNRESPONSIVE with STATE_CHANGE and WAKE_FAILED, in that order (R96).
REST_EXPIRY starts the next attempt (R97). Each acts only when its timer is due (log entry 3). -/
def Obligations.WakeTimersDriveTheSequence : Prop :=
  (∀ s : State, s.Settled → s.pins.resetn = true →
    (s.wake.pulseTimer = .running 0 →
      exec .pulseTimerExpiry s = .next (s.setWake { s.wake with line := .released, pulseTimer := .stopped })) ∧
    (∀ w, s.wake.attemptTimer = .running 0 → s.wake.phase = .attempt → s.wake.terms = some w →
      (s.wake.attempt < 1 + w.retries → exec .attemptTimerExpiry s = .next
        (s.setWake
          { s.wake with line := .released, pulseTimer := .stopped, phase := .rest, attemptTimer := .running 100 })) ∧
      (1 + w.retries ≤ s.wake.attempt → exec .attemptTimerExpiry s = .next
        ((((s.setWake
          { line := .released, phase := .idle, attempt := s.wake.attempt, terms := none, attemptTimer := .stopped,
            pulseTimer := .stopped }).changeState .unresponsive .attemptsSpent).raise
          (.wakeFailed s.wake.attempt s.hold.list.length)).settleOffer.settleLine))) ∧
    (s.wake.attemptTimer = .running 0 → s.wake.phase = .rest →
      exec .restExpiry s = .next (s.startAttempt (s.wake.attempt + 1)))) ∧
  (∀ s : State,
    (s.wake.pulseTimer ≠ .running 0 → exec .pulseTimerExpiry s = .next s) ∧
    (s.wake.attemptTimer ≠ .running 0 ∨ s.wake.phase ≠ .attempt → exec .attemptTimerExpiry s = .next s) ∧
    (s.wake.attemptTimer ≠ .running 0 ∨ s.wake.phase ≠ .rest → exec .restExpiry s = .next s))

/-! ## Notices -/

/-- A raise is settled by the first case that holds (R168, R169): masked; coalesced with an untransmitted
HOLD_PRESSURE record of the class; lost with a full queue; queued with the next serial. -/
def Obligations.RaiseIsSettledInFourCases : Prop :=
  ∀ (s : State) (body : NoticeBody),
    let u := s.notices
    let bit := match body with
      | .stateChange _ _ _ => 0 | .wakeFailed _ _ => 1 | .holdPressure _ _ _ => 2 | .lineLink _ => 3
    let joins := s.raise body = s.setNotices
      (if 8 ≤ u.queue.length then { u with lost := u.lost + 1 }
      else
        { u with
          queue := u.queue ++
            [{ serial := u.serial, body := body, time := s.time, station := s.ctx.station, transmissions := 0 }]
          serial := u.serial + 1 })
    (u.mask.getLsbD bit = false → s.raise body = s) ∧
    (u.mask.getLsbD bit = true →
      ((∀ c r e, body ≠ .holdPressure c r e) → joins) ∧
      (∀ c r e, body = .holdPressure c r e →
        ((∀ n ∈ u.queue, n.transmissions = 0 → ∀ r' e', n.body ≠ .holdPressure c r' e') → joins) ∧
        (∀ before n after r' e', u.queue = before ++ n :: after → n.body = .holdPressure c r' e' →
          n.transmissions = 0 →
          (∀ x ∈ before, x.transmissions = 0 → ∀ r'' e'', x.body ≠ .holdPressure c r'' e'') →
          s.raise body = s.setNotices
            { u with queue := before ++ { n with body := .holdPressure c (r' + r) (e' + e) } :: after })))

/-- NOTICE_ACK (R161, R172) removes the head of that serial once it has been transmitted, stops the timer and offers
the next head; otherwise STALE and nothing. NOTICE_MASK sets the mask; a bit of value 10 hex or above is BAD_VALUE. -/
def Obligations.NoticeCommandsActOnTheUnit : Prop :=
  ∀ (s : State) (h : CmdHeader) (b : Binding), s.Settled → s.Executes h b →
    (∀ (serial : Word16) (n : Notice) (rest : List Notice), s.notices.queue = n :: rest →
      (n.serial = serial → 1 ≤ n.transmissions → exec (.noticeAck h serial) s = .next
        ((s.executed h .noticeAck b .ok [byteOf rest.length]).setNotices
          { s.notices with queue := rest, timer := .stopped }).settleOffer) ∧
      (n.serial ≠ serial ∨ n.transmissions = 0 →
        exec (.noticeAck h serial) s = .next (s.executed h .noticeAck b .stale []))) ∧
    (∀ serial : Word16, s.notices.queue = [] →
      exec (.noticeAck h serial) s = .next (s.executed h .noticeAck b .stale [])) ∧
    (∀ mask : Byte,
      (mask.toNat < 16 → exec (.noticeMask h mask) s = .next
        ((s.executed h .noticeMask b .ok [mask]).setNotices { s.notices with mask := mask.setWidth 4 })) ∧
      (16 ≤ mask.toNat → exec (.noticeMask h mask) s = .next (s.executed h .noticeMask b .badValue [])))

/-- NOTICE_OFFER (R170, R147) counts the head's transmission, starts the timer at 2000 ms and puts its frame to the
line egress, which discards and counts it while the link is DOWN (R117). RETRANSMIT_TIMER_EXPIRY (R171) stops the
timer, drops the head after four transmissions as lost, and offers what it may. LEASE_EXPIRY (R134, R173) ends the
binding and tells the notice unit. Each acts only when it is due and changes nothing else: NOTICE_OFFER by log entry 4
(DESIGN CHOICE), the two expiries by log entry 3 (DEDUCED). The code and the body of each notice are those of R130 and
R147, the code of a cause that of R24. -/
def Obligations.NoticesAreSentUnderTheLease : Prop :=
  (∀ (s : State) (n : Notice) (rest : List Notice) (b : Binding), s.pins.resetn = true →
    s.notices.queue = n :: rest → n.transmissions < 4 → s.responder.binding = some b →
    s.notices.timer = .stopped → s.line.control.length < 4 →
    let offered := s.setNotices
      { s.notices with
        queue := { n with transmissions := n.transmissions + 1 } :: rest, timer := .running 2000 }
    let frame : CtlFrame :=
      { dst := b.manager, src := s.unitAddress, kind := 3, code := n.body.code, status := 0, seq := n.serial, tag := 0
        body := be32 n.time ++ [n.station.code, byteOf (n.transmissions + 1)] ++ be16 s.notices.lost ++ n.body.bytes }
    let sends := fun t : State => s.settleOffer = t ∧ exec .noticeOffer s = .next t.settle
    (s.line.linkUp = true → sends (offered.setLine { s.line with control := s.line.control ++ [frame] })) ∧
    (s.line.linkUp = false → sends
      (offered.setLine { s.line with
        counters := { s.line.counters with linkDownDiscards := s.line.counters.linkDownDiscards + 1 } }))) ∧
  (∀ s : State,
    s.notices.queue = [] ∨ (∃ n rest, s.notices.queue = n :: rest ∧ 4 ≤ n.transmissions) ∨
      s.responder.binding = none ∨ s.notices.timer ≠ .stopped ∨ 4 ≤ s.line.control.length →
    s.settleOffer = s ∧ exec .noticeOffer s = .next s) ∧
  (∀ (s : State) (n : Notice) (rest : List Notice), s.Settled → s.pins.resetn = true →
    s.notices.timer = .running 0 → s.notices.queue = n :: rest →
    (n.transmissions < 4 → exec .retransmitTimerExpiry s = .next
      (s.setNotices { s.notices with timer := .stopped }).settleOffer.settleLine) ∧
    (4 ≤ n.transmissions → exec .retransmitTimerExpiry s = .next
      (s.setNotices
        { s.notices with timer := .stopped, queue := rest, lost := s.notices.lost + 1 }).settleOffer.settleLine)) ∧
  (∀ s : State, s.notices.timer ≠ .running 0 → exec .retransmitTimerExpiry s = .next s) ∧
  (∀ (s : State) (b : Binding), s.Settled → s.pins.resetn = true → s.responder.binding = some b → b.remaining = 0 →
    exec .leaseExpiry s = .next
      ((s.setBinding none).setNotices
        { s.notices with
          timer := .stopped
          queue := match s.notices.queue with
            | [] => []
            | n :: rest => { n with transmissions := 0 } :: rest })) ∧
  (∀ s : State, (∀ b, s.responder.binding = some b → b.remaining ≠ 0) → exec .leaseExpiry s = .next s) ∧
  (∀ (left entered : StationState) (cause : Cause),
    (NoticeBody.stateChange left entered cause).code = 0x60 ∧
    (NoticeBody.stateChange left entered cause).bytes = [left.code, entered.code, cause.code]) ∧
  (∀ attempts held : Nat,
    (NoticeBody.wakeFailed attempts held).code = 0x61 ∧
    (NoticeBody.wakeFailed attempts held).bytes = [byteOf attempts, byteOf held]) ∧
  (∀ (c : HoldClass) (refusals evictions : Word32),
    (NoticeBody.holdPressure c refusals evictions).code = 0x62 ∧
    (NoticeBody.holdPressure c refusals evictions).bytes = [c.code] ++ be32 refusals ++ be32 evictions) ∧
  (∀ up : Bool, (NoticeBody.lineLink up).code = 0x63 ∧ (NoticeBody.lineLink up).bytes = [if up then 1 else 0]) ∧
  [Cause.doze, .drainEnd, .resume, .releaseEnd, .stationLinkDown, .ruleWake, .fullWake, .linkWake, .managerWake,
    .attemptsSpent, .warmReset].map Cause.code = [1, 2, 3, 4, 5, 6, 7, 8, 9, 10, 11]

/-! ## Resets by command -/

/-- RESET (R141, R163): its OK response is placed and cached and the reset becomes pending, in every station state,
and nothing else changes; a strength above 1 is BAD_VALUE. -/
def Obligations.ResetCommandWaitsForItsResponse : Prop :=
  ∀ (s : State) (h : CmdHeader) (b : Binding) (strength : Byte), s.Settled → s.Executes h b →
    let done := s.executed h .reset b .ok []
    (strength = 0 → exec (.reset h strength) s = .next
      (done.setResponder { done.responder with resetPending := some .warm })) ∧
    (strength = 1 → exec (.reset h strength) s = .next
      (done.setResponder { done.responder with resetPending := some .cold })) ∧
    (2 ≤ strength.toNat → exec (.reset h strength) s = .next (s.executed h .reset b .badValue []))

/-- A pending reset takes effect when its response has left the line control queue (R141): in the event that completes
the response's transmission, and by RESET_TAKES_EFFECT in a state where none is left. A WARM reset may offer a notice
in the same event, a COLD one leaves nothing to offer; and RESET_TAKES_EFFECT changes nothing where no reset is due
(DESIGN CHOICE, log entry 4). -/
def Obligations.ResetTakesEffectWithItsResponse : Prop :=
  (∀ (s : State) (r : CtlFrame) (rest : List CtlFrame), s.Settled → s.pins.resetn = true →
    s.line.tx = some .control → s.line.control = r :: rest → r.isResetResponse = true →
    (∀ c ∈ rest, c.isResetResponse = false) →
    let sent := s.setLine
      { s.line with
        tx := none
        control := rest
        counters := { s.line.counters with transmitted := s.line.counters.transmitted + 1 }
        lastSent := sentAfter .line s.line.lastSent s.lineTxFrame .completed }
    (s.responder.resetPending = some .warm →
      exec .lineTransmitComplete s = .next sent.warmReset.settleOffer.settleLine) ∧
    (s.responder.resetPending = some .cold → exec .lineTransmitComplete s = .next sent.coldReset)) ∧
  (∀ s : State, s.pins.resetn = true → (∀ c ∈ s.line.control, c.isResetResponse = false) →
    (s.responder.resetPending = some .warm →
      s.settleReset = s.warmReset ∧ exec .resetTakesEffect s = .next s.warmReset.settleOffer.settleLine) ∧
    (s.responder.resetPending = some .cold →
      s.settleReset = s.coldReset ∧ exec .resetTakesEffect s = .next s.coldReset)) ∧
  (∀ s : State,
    s.responder.resetPending = none ∨ (∃ c ∈ s.line.control, c.isResetResponse = true) →
    s.settleReset = s ∧ exec .resetTakesEffect s = .next s) ∧
  (∀ c : CtlFrame, c.isResetResponse = true ↔ c.kind = 2 ∧ c.code = 0x7F ∧ c.status = 0)

/-- The outcomes of R163, block by block. WARM: the station context, the hold store (each frame purged), the wake
controller, the queues and the transmissions are cleared; profiles, tables, templates, configurations, counters, the
binding, the notice unit, links, unit address and part time are kept; STATE_CHANGE is raised unless the state was
AWAKE. COLD: every block at its hardware reset values, but the unit address, the links and part time. Both keep what is
the model's own (log entries 10, 16), a cut being recorded (log entry 23). -/
def Obligations.ResetOutcomesAreThoseOfTheTable : Prop :=
  (∀ s : State, ∃ accounts : Accounts,
    (∀ c : HoldClass,
      let gone := s.hold.list.filter fun d => decide (d.cls = c)
      accounts.get c =
        { s.hold.accounts.get c with
          used := (s.hold.accounts.get c).used - (gone.map fun d => blocksFor d.frame.length).sum
          held := (s.hold.accounts.get c).held - gone.length
          purged := (s.hold.accounts.get c).purged + BitVec.ofNat 32 gone.length }) ∧
    let cleared : State :=
      { pending := s.pending, pins := s.pins, unitStraps := s.unitStraps, time := s.time
        ctx := { station := .awake, profiles := s.ctx.profiles, active := .none, address := none,
                 wakePending := false }
        rules := s.rules
        hold := { s.hold with
          freeBlocks := s.hold.freeBlocks + (s.hold.list.map fun d => blocksFor d.frame.length).sum
          list := []
          accounts := accounts }
        releaseTimer := .stopped
        wake := { line := .released, phase := .idle, attempt := 0, terms := none, attemptTimer := .stopped,
                  pulseTimer := .stopped }
        answers := { s.answers with queue := [] }
        line := { s.line with
          rx := none, tx := none, control := [], lastSent := sentAfter .line s.line.lastSent s.lineTxFrame .cutBadFcs }
        station := { s.station with
          rx := none, tx := none, control := []
          releaseCut := if s.station.tx = some .release then s.station.releaseCut + 1 else s.station.releaseCut
          lastSent := sentAfter .station s.station.lastSent s.stationTxFrame .cutBadFcs }
        transit := { toStation := [], toLine := [] }
        responder := { s.responder with resetPending := none }
        notices := s.notices
        freeCount := s.freeCount }
    (s.ctx.station = .awake → s.warmReset = cleared) ∧
    (s.ctx.station ≠ .awake → s.warmReset = cleared.raise (.stateChange s.ctx.station .awake .warmReset))) ∧
  (∀ s : State, s.coldReset =
    { State.reset with
      pending := s.pending, pins := s.pins, unitStraps := s.unitStraps, time := s.time
      line := { LinePort.initial s.line.linkUp with
        lastSent := sentAfter .line s.line.lastSent s.lineTxFrame .cutBadFcs }
      station := { StationPort.initial s.station.linkUp with
        lastSent := sentAfter .station s.station.lastSent s.stationTxFrame .cutBadFcs }
      freeCount := s.freeCount })

/-! ## The station's commands -/

/-- DOZE (R11 to R15, R164): an index above 3 is BAD_INDEX, an undefined record PROFILE_UNDEFINED, and nothing
changes. Otherwise the source becomes the station address, the record the active profile, and the state moves: from
AWAKE to ASLEEP or, with L→S transit, to DOZING; from RELEASING, the release stopped, to ASLEEP or, while it drains,
to DOZING; from WAKING and UNRESPONSIVE, the sequence ended, to ASLEEP; DOZING and ASLEEP stay. -/
def Obligations.DozeMovesTheStation : Prop :=
  ∀ (s : State) (h : CmdHeader) (index : Byte), s.Settled → s.Serves h →
    (4 ≤ index.toNat →
      exec (.doze h index) s = .next (s.withReply .station (s.reply h .doze .badIndex []))) ∧
    (∀ i : Fin 4, index.toNat = i.val → s.ctx.profiles.getD i.val none = none →
      exec (.doze h index) s = .next (s.withReply .station (s.reply h .doze .profileUndefined []))) ∧
    (∀ (i : Fin 4) (p : Profile), index.toNat = i.val → s.ctx.profiles.getD i.val none = some p →
      let answered := fun entered : StationState =>
        (s.withReply .station (s.reply h .doze .ok [entered.code, byteOf s.hold.list.length])).setCtx
          { s.ctx with address := some h.source, active := .record i }
      let idle : WakeController :=
        { line := .released, phase := .idle, attempt := 0, terms := none, attemptTimer := .stopped,
          pulseTimer := .stopped }
      let moved := fun t : State => exec (.doze h index) s = .next t.settleOffer.settleLine
      (s.ctx.station = .awake →
        (s.transit.toStation = [] → moved ((answered .asleep).changeState .asleep .doze)) ∧
        (s.transit.toStation ≠ [] → moved ((answered .dozing).changeState .dozing .doze))) ∧
      (s.ctx.station = .releasing →
        (s.transit.toStation = [] → s.delivering = none →
          moved (((answered .asleep).setReleaseTimer .stopped).changeState .asleep .doze)) ∧
        (s.transit.toStation ≠ [] ∨ s.delivering ≠ none →
          moved (((answered .dozing).setReleaseTimer .stopped).changeState .dozing .doze))) ∧
      (s.ctx.station = .dozing ∨ s.ctx.station = .asleep →
        exec (.doze h index) s = .next (answered s.ctx.station)) ∧
      (s.ctx.station = .waking ∨ s.ctx.station = .unresponsive →
        moved (((answered .asleep).setWake idle).changeState .asleep .doze)))

/-- RESUME (R18, R74, R98, R165): in an away state the sequence ends and the wake pending flag is cleared; with an
empty hold list the state becomes AWAKE, else RELEASING with the release delay started, EXPIRED at once when it is 0,
so that a delivery may begin in the same event (R76), also of a last frame whose expiry falls together with the Resume,
where R64 says otherwise (DESIGN CHOICE, log entry 24). In AWAKE and RELEASING nothing changes. STATION_QUERY (R166)
reads the state and the held counts and changes nothing. -/
def Obligations.ResumeEndsTheSleep : Prop :=
  ∀ (s : State) (h : CmdHeader), s.Settled → s.Serves h →
    let answered := fun entered : StationState =>
      s.withReply .station (s.reply h .resume .ok [entered.code, byteOf s.hold.list.length])
    let woken := fun entered : StationState =>
      ((answered entered).setWake
        { line := .released, phase := .idle, attempt := 0, terms := none, attemptTimer := .stopped,
          pulseTimer := .stopped }).setCtx { s.ctx with wakePending := false }
    (s.ctx.station.away = true → s.hold.list = [] →
      exec (.resume h) s = .next ((woken .awake).changeState .awake .resume).settleOffer.settleLine) ∧
    (s.ctx.station.away = true → s.hold.list ≠ [] →
      (∀ n, s.activeProfile.releaseDelay = n + 1 → exec (.resume h) s = .next
        (((woken .releasing).setReleaseTimer (.running (n + 1))).changeState
          .releasing .resume).settleOffer.settleLine) ∧
      (s.activeProfile.releaseDelay = 0 → exec (.resume h) s = .next
        (((woken .releasing).setReleaseTimer .expired).changeState
          .releasing .resume).settleDelivery.settleOffer.settleLine)) ∧
    (s.ctx.station.away = false → exec (.resume h) s = .next (answered s.ctx.station)) ∧
    exec (.stationQuery h) s = .next (s.withReply .station (s.reply h .stationQuery .ok
      ([s.ctx.station.code, byteOf s.hold.list.length] ++
        [HoldClass.c0, .c1, .c2, .c3, .b].map fun c => byteOf (s.hold.accounts.get c).held)))

/-! ## The part's own steps, transmissions and links -/

/-- DRAIN_END (R16, R17), RELEASE_END (R19), BEGIN_DELIVERY (R76) and RELEASE_DELAY_EXPIRY (R75), each exactly where
its conditions hold; what then becomes possible follows in the same event. Elsewhere each changes nothing: the part's
own steps by log entry 4 (DESIGN CHOICE), the release delay's expiry by log entry 3 (DEDUCED). What the part does of its
own accord at the end of an event is its own steps in one order (DEDUCED, log entry 7), each where it is due. -/
def Obligations.ReleaseAndDrainSteps : Prop :=
  (∀ s : State, s.pins.resetn = true →
    (s.ctx.station = .dozing → s.transit.toStation = [] → s.delivering = none →
      let drained := fun t : State => s.settleDrainEnd = t ∧ exec .drainEnd s = .next t.settle
      (s.ctx.wakePending = false → drained (s.changeState .asleep .drainEnd)) ∧
      (s.ctx.wakePending = true → drained
        (((s.setCtx { s.ctx with wakePending := false }).changeState .waking .drainEnd).startAttempt 1))) ∧
    (s.ctx.station = .releasing → s.hold.list = [] →
      let released := (s.setReleaseTimer .stopped).changeState .awake .releaseEnd
      s.settleReleaseEnd = released ∧ exec .releaseEnd s = .next released.settle) ∧
    (∀ d rest, s.ctx.station = .releasing → s.releaseTimer = .expired → s.transit.toStation = [] →
      s.hold.list = d :: rest → s.delivering = none →
      let begun := s.setHold { s.hold with list := { d with state := .delivering } :: rest }
      s.settleDelivery = begun ∧ exec .beginDelivery s = .next begun.settle) ∧
    (s.releaseTimer = .running 0 →
      exec .releaseDelayExpiry s = .next (s.setReleaseTimer .expired).settle)) ∧
  (∀ s : State,
    (s.ctx.station ≠ .dozing ∨ s.transit.toStation ≠ [] ∨ s.delivering ≠ none →
      s.settleDrainEnd = s ∧ exec .drainEnd s = .next s) ∧
    (s.ctx.station ≠ .releasing ∨ s.hold.list ≠ [] → s.settleReleaseEnd = s ∧ exec .releaseEnd s = .next s) ∧
    (s.ctx.station ≠ .releasing ∨ s.releaseTimer ≠ .expired ∨ s.transit.toStation ≠ [] ∨ s.hold.list = [] ∨
      s.delivering ≠ none → s.settleDelivery = s ∧ exec .beginDelivery s = .next s) ∧
    (s.releaseTimer ≠ .running 0 → exec .releaseDelayExpiry s = .next s)) ∧
  (∀ s : State, s.settle =
    s.settleReset.settleReleaseEnd.settleDrainEnd.settleDelivery.settleLine.settleStation.settleOffer.settleLine)

/-- The egress arbiters (R117, R119): an idle transmitter whose link is UP begins with the control queue, then the
answers at the line and the released frame at the station, then the transit queue; otherwise the event does nothing
(DESIGN CHOICE, log entry 4). -/
def Obligations.ArbitersChooseInOrder : Prop :=
  (∀ s : State, s.pins.resetn = true → s.line.tx = none → s.line.linkUp = true →
    let begins := fun src : LineSource =>
      let begun := s.setLine { s.line with tx := some src }
      s.settleLine = begun ∧ exec .lineTransmitStart s = .next begun.settle
    (s.line.control ≠ [] → begins .control) ∧
    (s.line.control = [] → s.answers.queue ≠ [] → begins .answer) ∧
    (s.line.control = [] → s.answers.queue = [] → s.transit.toLine ≠ [] → begins .transit)) ∧
  (∀ s : State, s.pins.resetn = true → s.station.tx = none → s.station.linkUp = true →
    let begins := fun src : StationSource =>
      let begun := s.setStation { s.station with tx := some src }
      s.settleStation = begun ∧ exec .stationTransmitStart s = .next begun.settle
    (s.station.control ≠ [] → begins .control) ∧
    (s.station.control = [] → s.delivering ≠ none → begins .release) ∧
    (s.station.control = [] → s.delivering = none → s.transit.toStation ≠ [] → begins .transit)) ∧
  (∀ s : State,
    (s.line.tx ≠ none ∨ s.line.linkUp = false ∨
      (s.line.control = [] ∧ s.answers.queue = [] ∧ s.transit.toLine = []) →
      s.settleLine = s ∧ exec .lineTransmitStart s = .next s) ∧
    (s.station.tx ≠ none ∨ s.station.linkUp = false ∨
      (s.station.control = [] ∧ s.delivering = none ∧ s.transit.toStation = []) →
      s.settleStation = s ∧ exec .stationTransmitStart s = .next s))

/-- The completion of a transmission (R50, R78, R107, R117, R119): the frame leaves the queue it was sent from and is
counted, an answer as sent, a released frame as delivered out of the hold store; what then becomes possible follows.
An idle transmitter completes nothing (DESIGN CHOICE, log entry 4). A control frame is sent as R126 and R118 lay it out:
its header, most significant byte first, its body, bytes of 00 up to 60, and its FCS. The record of what was sent is the
model's own (log entry 10). -/
def Obligations.CompletionTakesTheFrameOut : Prop :=
  (∀ s : State, s.pins.resetn = true →
    let sent := fun f : Frame =>
      s.setLine { s.line with
        tx := none
        counters := { s.line.counters with transmitted := s.line.counters.transmitted + 1 }
        lastSent := { s.line.lastSent with last := some { ending := .completed, frame := f, bytes := f } } }
    (∀ c rest, s.line.tx = some .control → s.line.control = c :: rest → exec .lineTransmitComplete s = .next
      ((sent c.wire).setLine { (sent c.wire).line with control := rest }).settle) ∧
    (∀ f rest, s.line.tx = some .answer → s.answers.queue = f :: rest → exec .lineTransmitComplete s = .next
      ((sent f).setAnswers { s.answers with queue := rest, sent := s.answers.sent + 1 }).settle) ∧
    (∀ f rest, s.line.tx = some .transit → s.transit.toLine = f :: rest → exec .lineTransmitComplete s = .next
      ((sent f).setTransit { s.transit with toLine := rest }).settle)) ∧
  (∀ s : State, s.pins.resetn = true →
    let sent := fun f : Frame =>
      s.setStation { s.station with
        tx := none
        counters := { s.station.counters with transmitted := s.station.counters.transmitted + 1 }
        lastSent := { s.station.lastSent with last := some { ending := .completed, frame := f, bytes := f } } }
    (∀ c rest, s.station.tx = some .control → s.station.control = c :: rest →
      exec .stationTransmitComplete s = .next
        ((sent c.wire).setStation { (sent c.wire).station with control := rest }).settle) ∧
    (∀ before after d, s.station.tx = some .release → s.hold.list = before ++ d :: after → d.state = .delivering →
      (∀ x ∈ before, x.state = .held) →
      exec .stationTransmitComplete s = .next
        ((sent d.frame).setHold { s.hold with
          list := before ++ after
          freeBlocks := s.hold.freeBlocks + blocksFor d.frame.length
          accounts := s.hold.accounts.set d.cls
            { s.hold.accounts.get d.cls with
              used := (s.hold.accounts.get d.cls).used - blocksFor d.frame.length
              held := (s.hold.accounts.get d.cls).held - 1
              delivered := (s.hold.accounts.get d.cls).delivered + 1 } }).settle) ∧
    (∀ f rest, s.station.tx = some .transit → s.transit.toStation = f :: rest →
      exec .stationTransmitComplete s = .next ((sent f).setTransit { s.transit with toStation := rest }).settle)) ∧
  (∀ s : State,
    (s.line.tx = none → exec .lineTransmitComplete s = .next s) ∧
    (s.station.tx = none → exec .stationTransmitComplete s = .next s)) ∧
  (∀ c : CtlFrame,
    let content := macBytes c.dst ++ macBytes c.src ++ [0xB5, 0x9E, 1, c.kind, c.code, c.status] ++ be16 c.seq ++
      be16 c.tag ++ nat16 c.body.length ++ c.body
    let padded := content ++ List.replicate (60 - content.length) 0
    content.length = 24 + c.body.length ∧ 64 ≤ c.wire.length ∧ c.wire = padded ++ fcsBytes padded ∧
    (c.body.length ≤ 1494 → intakeOk c.wire = true))

/-- The line link events (R23, R111, R112, R121, R141, R174). A loss stops the transmission, discards and counts the
control, answer and S→L transit queues, counts a reception in progress as an intake error, lets a pending reset take
effect, raises LINE_LINK and makes the wake decision its profile asks for; a regain raises and decides only. What had
arrived is the event's operand or the state's (DESIGN CHOICE, log entry 11). An event that changes no link does nothing
(DESIGN CHOICE, log entry 4). -/
def Obligations.LineLinkEvents : Prop :=
  (∀ (s : State) (arriving : Option Frame), s.pins.resetn = true → s.line.linkUp = true →
    let receiving := arriving.isSome || s.line.rx.isSome
    let queued := s.line.control.length + s.answers.queue.length + s.transit.toLine.length
    let lost := (((s.setLine
      { linkUp := false, rx := none, tx := none, control := []
        counters := { s.line.counters with
          intakeErrors := if receiving then s.line.counters.intakeErrors + 1 else s.line.counters.intakeErrors
          linkDownDiscards := s.line.counters.linkDownDiscards + BitVec.ofNat 32 queued }
        lastSent := sentAfter .line s.line.lastSent s.lineTxFrame .stoppedAtLoss }).setAnswers
      { s.answers with queue := [] }).setTransit { s.transit with toLine := [] }).setPins
      { s.pins with linkL := false }
    exec (.lineLinkLoss arriving) s = .next (lost.settleReset.lineLinkEvent false).settle) ∧
  (∀ s : State, s.pins.resetn = true → s.line.linkUp = false → exec .lineLinkRegain s = .next
    (((s.setLine { s.line with linkUp := true }).setPins { s.pins with linkL := true }).lineLinkEvent true).settle) ∧
  (∀ (s : State) (up : Bool),
    let raised := s.raise (.lineLink up)
    let deciding := s.ctx.station = .dozing ∨ s.ctx.station = .asleep ∨ s.ctx.station = .unresponsive
    (deciding → s.activeProfile.wakeOnLink = true → s.lineLinkEvent up = raised.wakeDecision .linkWake) ∧
    (deciding → s.activeProfile.wakeOnLink = false → s.lineLinkEvent up = raised) ∧
    (¬ deciding → s.lineLinkEvent up = raised)) ∧
  (∀ (s : State) (arriving : Option Frame),
    (s.line.linkUp = false → exec (.lineLinkLoss arriving) s = .next s) ∧
    (s.line.linkUp = true → exec .lineLinkRegain s = .next s))

/-- The station link events (R20 to R22, R51, R64, R81, R112, R122). A loss stops the transmission (counting a release
cut), discards and counts the control and L→S transit queues, counts a reception in progress as an intake error,
returns a DELIVERING frame to HELD or, past its lifetime, expires it, and moves the station by its state; a regain
changes the link alone. What had arrived is the event's operand or the state's (DESIGN CHOICE, log entry 11). An event
that changes no link does nothing (DESIGN CHOICE, log entry 4). -/
def Obligations.StationLinkEvents : Prop :=
  (∀ (s : State) (arriving : Option Frame), s.pins.resetn = true → s.station.linkUp = true →
    let receiving := arriving.isSome || s.station.rx.isSome
    let queued := s.station.control.length + s.transit.toStation.length
    let lost := ((s.setStation
      { linkUp := false, rx := none, tx := none, control := []
        counters := { s.station.counters with
          intakeErrors := if receiving then s.station.counters.intakeErrors + 1 else s.station.counters.intakeErrors
          linkDownDiscards := s.station.counters.linkDownDiscards + BitVec.ofNat 32 queued }
        releaseCut := if s.station.tx = some .release then s.station.releaseCut + 1 else s.station.releaseCut
        lastSent := sentAfter .station s.station.lastSent s.stationTxFrame .stoppedAtLoss }).setTransit
      { s.transit with toStation := [] }).setPins { s.pins with linkS := false }
    let returned := lost.setHold (s.hold.cutWithReturn s.time)
    let fallback := { s.ctx with
      active := if (s.ctx.profiles.getD 0 none).isSome then ActiveProfile.record 0 else .builtIn }
    let out := exec (.stationLinkLoss arriving) s
    (s.ctx.station = .awake →
      out = .next ((returned.setCtx fallback).changeState .asleep .stationLinkDown).settle) ∧
    (s.ctx.station = .releasing →
      out = .next (((returned.setReleaseTimer .stopped).setCtx fallback).changeState .asleep .stationLinkDown).settle) ∧
    (s.ctx.station = .dozing →
      (s.ctx.wakePending = false → out = .next (returned.changeState .asleep .stationLinkDown).settle) ∧
      (s.ctx.wakePending = true → out = .next
        (((returned.setCtx { s.ctx with wakePending := false }).changeState .waking .stationLinkDown).startAttempt
          1).settle)) ∧
    (s.ctx.station = .asleep ∨ s.ctx.station = .waking ∨ s.ctx.station = .unresponsive →
      out = .next returned.settle)) ∧
  (∀ (h : HoldStore) (now : Word32),
    ((∀ d ∈ h.list, d.state = .held) → h.cutWithReturn now = h) ∧
    (∀ d rest, h.list = d :: rest → d.state = .delivering → (∀ x ∈ rest, x.state = .held ∧ x.serial ≠ d.serial) →
      let lifetime := (h.configs.get d.cls).lifetime
      (lifetime = 0 ∨ (now - d.arrival).toNat < lifetime * 1000 →
        h.cutWithReturn now = { h with list := { d with state := .held } :: rest }) ∧
      (lifetime ≠ 0 → lifetime * 1000 ≤ (now - d.arrival).toNat →
        h.cutWithReturn now = { h with
          list := rest
          freeBlocks := h.freeBlocks + blocksFor d.frame.length
          accounts := h.accounts.set d.cls
            { h.accounts.get d.cls with
              used := (h.accounts.get d.cls).used - blocksFor d.frame.length
              held := (h.accounts.get d.cls).held - 1
              expired := (h.accounts.get d.cls).expired + 1 } }))) ∧
  (∀ s : State, s.pins.resetn = true → s.station.linkUp = false → exec .stationLinkRegain s = .next
    ((s.setStation { s.station with linkUp := true }).setPins { s.pins with linkS := true }).settle) ∧
  (∀ (s : State) (arriving : Option Frame),
    (s.station.linkUp = false → exec (.stationLinkLoss arriving) s = .next s) ∧
    (s.station.linkUp = true → exec .stationLinkRegain s = .next s))

/-! ## Invariants -/

/-- Every step leaves none of the part's own steps outstanding (R16, R19, R76, R117, R119, R141, R170). -/
def Obligations.StepsLeaveThePartSettled : Prop :=
  ∀ s t : State, s.Settled → step s = .next t → t.Settled

/-- Every step keeps the capacities of the queues and tables, the laws of the notice queue and those of the binding
record (spec 00, R132, R167, R170, R173). -/
def Obligations.StepsKeepQueuesAndSession : Prop :=
  ∀ s t : State, s.Capacities → s.NoticeLaws → s.BindingLaws → step s = .next t →
    t.Capacities ∧ t.NoticeLaws ∧ t.BindingLaws

/-- Every step keeps the accounting of the hold store (R47, R48, R55) and the order of the hold list (R49, R52,
R53). -/
def Obligations.StepsKeepTheHoldStore : Prop :=
  ∀ s t : State, s.hold.Accounted → s.hold.Ordered → step s = .next t → t.hold.Accounted ∧ t.hold.Ordered

/-- Every step keeps the laws that bind the station state to the hold list, the transit queue, the active profile and
the release delay timer (R2, R7, R9, R17, R73), and the table of the wake controller's phases (R86, R87). -/
def Obligations.StepsKeepContextAndWake : Prop :=
  ∀ s t : State, s.ContextLaws → s.WakeLaws → step s = .next t → t.ContextLaws ∧ t.WakeLaws

/-- The reset state meets every invariant. -/
def Obligations.ResetStateMeetsTheInvariants : Prop :=
  State.reset.Settled ∧ State.reset.Capacities ∧ State.reset.NoticeLaws ∧ State.reset.BindingLaws ∧
  State.reset.hold.Accounted ∧ State.reset.hold.Ordered ∧ State.reset.ContextLaws ∧ State.reset.WakeLaws

end
end

