-- ==== Sys2Proof/Laws/State.lean ====
section
/-! SUPPORT. The projections of every update of State, true by definition. -/

namespace Sys2Proof.Machine

@[simp] theorem State.pending_setPending (s : State) (x : List Instr) : (s.setPending x).pending = x := rfl
@[simp] theorem State.pins_setPending (s : State) (x : List Instr) : (s.setPending x).pins = s.pins := rfl
@[simp] theorem State.unitStraps_setPending (s : State) (x : List Instr) : (s.setPending x).unitStraps = s.unitStraps := rfl
@[simp] theorem State.time_setPending (s : State) (x : List Instr) : (s.setPending x).time = s.time := rfl
@[simp] theorem State.ctx_setPending (s : State) (x : List Instr) : (s.setPending x).ctx = s.ctx := rfl
@[simp] theorem State.rules_setPending (s : State) (x : List Instr) : (s.setPending x).rules = s.rules := rfl
@[simp] theorem State.hold_setPending (s : State) (x : List Instr) : (s.setPending x).hold = s.hold := rfl
@[simp] theorem State.releaseTimer_setPending (s : State) (x : List Instr) : (s.setPending x).releaseTimer = s.releaseTimer := rfl
@[simp] theorem State.wake_setPending (s : State) (x : List Instr) : (s.setPending x).wake = s.wake := rfl
@[simp] theorem State.answers_setPending (s : State) (x : List Instr) : (s.setPending x).answers = s.answers := rfl
@[simp] theorem State.line_setPending (s : State) (x : List Instr) : (s.setPending x).line = s.line := rfl
@[simp] theorem State.station_setPending (s : State) (x : List Instr) : (s.setPending x).station = s.station := rfl
@[simp] theorem State.transit_setPending (s : State) (x : List Instr) : (s.setPending x).transit = s.transit := rfl
@[simp] theorem State.responder_setPending (s : State) (x : List Instr) : (s.setPending x).responder = s.responder := rfl
@[simp] theorem State.notices_setPending (s : State) (x : List Instr) : (s.setPending x).notices = s.notices := rfl
@[simp] theorem State.freeCount_setPending (s : State) (x : List Instr) : (s.setPending x).freeCount = s.freeCount := rfl
@[simp] theorem State.pending_setPins (s : State) (x : Pins) : (s.setPins x).pending = s.pending := rfl
@[simp] theorem State.pins_setPins (s : State) (x : Pins) : (s.setPins x).pins = x := rfl
@[simp] theorem State.unitStraps_setPins (s : State) (x : Pins) : (s.setPins x).unitStraps = s.unitStraps := rfl
@[simp] theorem State.time_setPins (s : State) (x : Pins) : (s.setPins x).time = s.time := rfl
@[simp] theorem State.ctx_setPins (s : State) (x : Pins) : (s.setPins x).ctx = s.ctx := rfl
@[simp] theorem State.rules_setPins (s : State) (x : Pins) : (s.setPins x).rules = s.rules := rfl
@[simp] theorem State.hold_setPins (s : State) (x : Pins) : (s.setPins x).hold = s.hold := rfl
@[simp] theorem State.releaseTimer_setPins (s : State) (x : Pins) : (s.setPins x).releaseTimer = s.releaseTimer := rfl
@[simp] theorem State.wake_setPins (s : State) (x : Pins) : (s.setPins x).wake = s.wake := rfl
@[simp] theorem State.answers_setPins (s : State) (x : Pins) : (s.setPins x).answers = s.answers := rfl
@[simp] theorem State.line_setPins (s : State) (x : Pins) : (s.setPins x).line = s.line := rfl
@[simp] theorem State.station_setPins (s : State) (x : Pins) : (s.setPins x).station = s.station := rfl
@[simp] theorem State.transit_setPins (s : State) (x : Pins) : (s.setPins x).transit = s.transit := rfl
@[simp] theorem State.responder_setPins (s : State) (x : Pins) : (s.setPins x).responder = s.responder := rfl
@[simp] theorem State.notices_setPins (s : State) (x : Pins) : (s.setPins x).notices = s.notices := rfl
@[simp] theorem State.freeCount_setPins (s : State) (x : Pins) : (s.setPins x).freeCount = s.freeCount := rfl
@[simp] theorem State.pending_setUnitStraps (s : State) (x : BitVec 6) : (s.setUnitStraps x).pending = s.pending := rfl
@[simp] theorem State.pins_setUnitStraps (s : State) (x : BitVec 6) : (s.setUnitStraps x).pins = s.pins := rfl
@[simp] theorem State.unitStraps_setUnitStraps (s : State) (x : BitVec 6) : (s.setUnitStraps x).unitStraps = x := rfl
@[simp] theorem State.time_setUnitStraps (s : State) (x : BitVec 6) : (s.setUnitStraps x).time = s.time := rfl
@[simp] theorem State.ctx_setUnitStraps (s : State) (x : BitVec 6) : (s.setUnitStraps x).ctx = s.ctx := rfl
@[simp] theorem State.rules_setUnitStraps (s : State) (x : BitVec 6) : (s.setUnitStraps x).rules = s.rules := rfl
@[simp] theorem State.hold_setUnitStraps (s : State) (x : BitVec 6) : (s.setUnitStraps x).hold = s.hold := rfl
@[simp] theorem State.releaseTimer_setUnitStraps (s : State) (x : BitVec 6) : (s.setUnitStraps x).releaseTimer = s.releaseTimer := rfl
@[simp] theorem State.wake_setUnitStraps (s : State) (x : BitVec 6) : (s.setUnitStraps x).wake = s.wake := rfl
@[simp] theorem State.answers_setUnitStraps (s : State) (x : BitVec 6) : (s.setUnitStraps x).answers = s.answers := rfl
@[simp] theorem State.line_setUnitStraps (s : State) (x : BitVec 6) : (s.setUnitStraps x).line = s.line := rfl
@[simp] theorem State.station_setUnitStraps (s : State) (x : BitVec 6) : (s.setUnitStraps x).station = s.station := rfl
@[simp] theorem State.transit_setUnitStraps (s : State) (x : BitVec 6) : (s.setUnitStraps x).transit = s.transit := rfl
@[simp] theorem State.responder_setUnitStraps (s : State) (x : BitVec 6) : (s.setUnitStraps x).responder = s.responder := rfl
@[simp] theorem State.notices_setUnitStraps (s : State) (x : BitVec 6) : (s.setUnitStraps x).notices = s.notices := rfl
@[simp] theorem State.freeCount_setUnitStraps (s : State) (x : BitVec 6) : (s.setUnitStraps x).freeCount = s.freeCount := rfl
@[simp] theorem State.pending_setTime (s : State) (x : Word32) : (s.setTime x).pending = s.pending := rfl
@[simp] theorem State.pins_setTime (s : State) (x : Word32) : (s.setTime x).pins = s.pins := rfl
@[simp] theorem State.unitStraps_setTime (s : State) (x : Word32) : (s.setTime x).unitStraps = s.unitStraps := rfl
@[simp] theorem State.time_setTime (s : State) (x : Word32) : (s.setTime x).time = x := rfl
@[simp] theorem State.ctx_setTime (s : State) (x : Word32) : (s.setTime x).ctx = s.ctx := rfl
@[simp] theorem State.rules_setTime (s : State) (x : Word32) : (s.setTime x).rules = s.rules := rfl
@[simp] theorem State.hold_setTime (s : State) (x : Word32) : (s.setTime x).hold = s.hold := rfl
@[simp] theorem State.releaseTimer_setTime (s : State) (x : Word32) : (s.setTime x).releaseTimer = s.releaseTimer := rfl
@[simp] theorem State.wake_setTime (s : State) (x : Word32) : (s.setTime x).wake = s.wake := rfl
@[simp] theorem State.answers_setTime (s : State) (x : Word32) : (s.setTime x).answers = s.answers := rfl
@[simp] theorem State.line_setTime (s : State) (x : Word32) : (s.setTime x).line = s.line := rfl
@[simp] theorem State.station_setTime (s : State) (x : Word32) : (s.setTime x).station = s.station := rfl
@[simp] theorem State.transit_setTime (s : State) (x : Word32) : (s.setTime x).transit = s.transit := rfl
@[simp] theorem State.responder_setTime (s : State) (x : Word32) : (s.setTime x).responder = s.responder := rfl
@[simp] theorem State.notices_setTime (s : State) (x : Word32) : (s.setTime x).notices = s.notices := rfl
@[simp] theorem State.freeCount_setTime (s : State) (x : Word32) : (s.setTime x).freeCount = s.freeCount := rfl
@[simp] theorem State.pending_setCtx (s : State) (x : Context) : (s.setCtx x).pending = s.pending := rfl
@[simp] theorem State.pins_setCtx (s : State) (x : Context) : (s.setCtx x).pins = s.pins := rfl
@[simp] theorem State.unitStraps_setCtx (s : State) (x : Context) : (s.setCtx x).unitStraps = s.unitStraps := rfl
@[simp] theorem State.time_setCtx (s : State) (x : Context) : (s.setCtx x).time = s.time := rfl
@[simp] theorem State.ctx_setCtx (s : State) (x : Context) : (s.setCtx x).ctx = x := rfl
@[simp] theorem State.rules_setCtx (s : State) (x : Context) : (s.setCtx x).rules = s.rules := rfl
@[simp] theorem State.hold_setCtx (s : State) (x : Context) : (s.setCtx x).hold = s.hold := rfl
@[simp] theorem State.releaseTimer_setCtx (s : State) (x : Context) : (s.setCtx x).releaseTimer = s.releaseTimer := rfl
@[simp] theorem State.wake_setCtx (s : State) (x : Context) : (s.setCtx x).wake = s.wake := rfl
@[simp] theorem State.answers_setCtx (s : State) (x : Context) : (s.setCtx x).answers = s.answers := rfl
@[simp] theorem State.line_setCtx (s : State) (x : Context) : (s.setCtx x).line = s.line := rfl
@[simp] theorem State.station_setCtx (s : State) (x : Context) : (s.setCtx x).station = s.station := rfl
@[simp] theorem State.transit_setCtx (s : State) (x : Context) : (s.setCtx x).transit = s.transit := rfl
@[simp] theorem State.responder_setCtx (s : State) (x : Context) : (s.setCtx x).responder = s.responder := rfl
@[simp] theorem State.notices_setCtx (s : State) (x : Context) : (s.setCtx x).notices = s.notices := rfl
@[simp] theorem State.freeCount_setCtx (s : State) (x : Context) : (s.setCtx x).freeCount = s.freeCount := rfl
@[simp] theorem State.pending_setRules (s : State) (x : Classifier) : (s.setRules x).pending = s.pending := rfl
@[simp] theorem State.pins_setRules (s : State) (x : Classifier) : (s.setRules x).pins = s.pins := rfl
@[simp] theorem State.unitStraps_setRules (s : State) (x : Classifier) : (s.setRules x).unitStraps = s.unitStraps := rfl
@[simp] theorem State.time_setRules (s : State) (x : Classifier) : (s.setRules x).time = s.time := rfl
@[simp] theorem State.ctx_setRules (s : State) (x : Classifier) : (s.setRules x).ctx = s.ctx := rfl
@[simp] theorem State.rules_setRules (s : State) (x : Classifier) : (s.setRules x).rules = x := rfl
@[simp] theorem State.hold_setRules (s : State) (x : Classifier) : (s.setRules x).hold = s.hold := rfl
@[simp] theorem State.releaseTimer_setRules (s : State) (x : Classifier) : (s.setRules x).releaseTimer = s.releaseTimer := rfl
@[simp] theorem State.wake_setRules (s : State) (x : Classifier) : (s.setRules x).wake = s.wake := rfl
@[simp] theorem State.answers_setRules (s : State) (x : Classifier) : (s.setRules x).answers = s.answers := rfl
@[simp] theorem State.line_setRules (s : State) (x : Classifier) : (s.setRules x).line = s.line := rfl
@[simp] theorem State.station_setRules (s : State) (x : Classifier) : (s.setRules x).station = s.station := rfl
@[simp] theorem State.transit_setRules (s : State) (x : Classifier) : (s.setRules x).transit = s.transit := rfl
@[simp] theorem State.responder_setRules (s : State) (x : Classifier) : (s.setRules x).responder = s.responder := rfl
@[simp] theorem State.notices_setRules (s : State) (x : Classifier) : (s.setRules x).notices = s.notices := rfl
@[simp] theorem State.freeCount_setRules (s : State) (x : Classifier) : (s.setRules x).freeCount = s.freeCount := rfl
@[simp] theorem State.pending_setHold (s : State) (x : HoldStore) : (s.setHold x).pending = s.pending := rfl
@[simp] theorem State.pins_setHold (s : State) (x : HoldStore) : (s.setHold x).pins = s.pins := rfl
@[simp] theorem State.unitStraps_setHold (s : State) (x : HoldStore) : (s.setHold x).unitStraps = s.unitStraps := rfl
@[simp] theorem State.time_setHold (s : State) (x : HoldStore) : (s.setHold x).time = s.time := rfl
@[simp] theorem State.ctx_setHold (s : State) (x : HoldStore) : (s.setHold x).ctx = s.ctx := rfl
@[simp] theorem State.rules_setHold (s : State) (x : HoldStore) : (s.setHold x).rules = s.rules := rfl
@[simp] theorem State.hold_setHold (s : State) (x : HoldStore) : (s.setHold x).hold = x := rfl
@[simp] theorem State.releaseTimer_setHold (s : State) (x : HoldStore) : (s.setHold x).releaseTimer = s.releaseTimer := rfl
@[simp] theorem State.wake_setHold (s : State) (x : HoldStore) : (s.setHold x).wake = s.wake := rfl
@[simp] theorem State.answers_setHold (s : State) (x : HoldStore) : (s.setHold x).answers = s.answers := rfl
@[simp] theorem State.line_setHold (s : State) (x : HoldStore) : (s.setHold x).line = s.line := rfl
@[simp] theorem State.station_setHold (s : State) (x : HoldStore) : (s.setHold x).station = s.station := rfl
@[simp] theorem State.transit_setHold (s : State) (x : HoldStore) : (s.setHold x).transit = s.transit := rfl
@[simp] theorem State.responder_setHold (s : State) (x : HoldStore) : (s.setHold x).responder = s.responder := rfl
@[simp] theorem State.notices_setHold (s : State) (x : HoldStore) : (s.setHold x).notices = s.notices := rfl
@[simp] theorem State.freeCount_setHold (s : State) (x : HoldStore) : (s.setHold x).freeCount = s.freeCount := rfl
@[simp] theorem State.pending_setReleaseTimer (s : State) (x : ReleaseTimer) : (s.setReleaseTimer x).pending = s.pending := rfl
@[simp] theorem State.pins_setReleaseTimer (s : State) (x : ReleaseTimer) : (s.setReleaseTimer x).pins = s.pins := rfl
@[simp] theorem State.unitStraps_setReleaseTimer (s : State) (x : ReleaseTimer) : (s.setReleaseTimer x).unitStraps = s.unitStraps := rfl
@[simp] theorem State.time_setReleaseTimer (s : State) (x : ReleaseTimer) : (s.setReleaseTimer x).time = s.time := rfl
@[simp] theorem State.ctx_setReleaseTimer (s : State) (x : ReleaseTimer) : (s.setReleaseTimer x).ctx = s.ctx := rfl
@[simp] theorem State.rules_setReleaseTimer (s : State) (x : ReleaseTimer) : (s.setReleaseTimer x).rules = s.rules := rfl
@[simp] theorem State.hold_setReleaseTimer (s : State) (x : ReleaseTimer) : (s.setReleaseTimer x).hold = s.hold := rfl
@[simp] theorem State.releaseTimer_setReleaseTimer (s : State) (x : ReleaseTimer) : (s.setReleaseTimer x).releaseTimer = x := rfl
@[simp] theorem State.wake_setReleaseTimer (s : State) (x : ReleaseTimer) : (s.setReleaseTimer x).wake = s.wake := rfl
@[simp] theorem State.answers_setReleaseTimer (s : State) (x : ReleaseTimer) : (s.setReleaseTimer x).answers = s.answers := rfl
@[simp] theorem State.line_setReleaseTimer (s : State) (x : ReleaseTimer) : (s.setReleaseTimer x).line = s.line := rfl
@[simp] theorem State.station_setReleaseTimer (s : State) (x : ReleaseTimer) : (s.setReleaseTimer x).station = s.station := rfl
@[simp] theorem State.transit_setReleaseTimer (s : State) (x : ReleaseTimer) : (s.setReleaseTimer x).transit = s.transit := rfl
@[simp] theorem State.responder_setReleaseTimer (s : State) (x : ReleaseTimer) : (s.setReleaseTimer x).responder = s.responder := rfl
@[simp] theorem State.notices_setReleaseTimer (s : State) (x : ReleaseTimer) : (s.setReleaseTimer x).notices = s.notices := rfl
@[simp] theorem State.freeCount_setReleaseTimer (s : State) (x : ReleaseTimer) : (s.setReleaseTimer x).freeCount = s.freeCount := rfl
@[simp] theorem State.pending_setWake (s : State) (x : WakeController) : (s.setWake x).pending = s.pending := rfl
@[simp] theorem State.pins_setWake (s : State) (x : WakeController) : (s.setWake x).pins = s.pins := rfl
@[simp] theorem State.unitStraps_setWake (s : State) (x : WakeController) : (s.setWake x).unitStraps = s.unitStraps := rfl
@[simp] theorem State.time_setWake (s : State) (x : WakeController) : (s.setWake x).time = s.time := rfl
@[simp] theorem State.ctx_setWake (s : State) (x : WakeController) : (s.setWake x).ctx = s.ctx := rfl
@[simp] theorem State.rules_setWake (s : State) (x : WakeController) : (s.setWake x).rules = s.rules := rfl
@[simp] theorem State.hold_setWake (s : State) (x : WakeController) : (s.setWake x).hold = s.hold := rfl
@[simp] theorem State.releaseTimer_setWake (s : State) (x : WakeController) : (s.setWake x).releaseTimer = s.releaseTimer := rfl
@[simp] theorem State.wake_setWake (s : State) (x : WakeController) : (s.setWake x).wake = x := rfl
@[simp] theorem State.answers_setWake (s : State) (x : WakeController) : (s.setWake x).answers = s.answers := rfl
@[simp] theorem State.line_setWake (s : State) (x : WakeController) : (s.setWake x).line = s.line := rfl
@[simp] theorem State.station_setWake (s : State) (x : WakeController) : (s.setWake x).station = s.station := rfl
@[simp] theorem State.transit_setWake (s : State) (x : WakeController) : (s.setWake x).transit = s.transit := rfl
@[simp] theorem State.responder_setWake (s : State) (x : WakeController) : (s.setWake x).responder = s.responder := rfl
@[simp] theorem State.notices_setWake (s : State) (x : WakeController) : (s.setWake x).notices = s.notices := rfl
@[simp] theorem State.freeCount_setWake (s : State) (x : WakeController) : (s.setWake x).freeCount = s.freeCount := rfl
@[simp] theorem State.pending_setAnswers (s : State) (x : AnswerGen) : (s.setAnswers x).pending = s.pending := rfl
@[simp] theorem State.pins_setAnswers (s : State) (x : AnswerGen) : (s.setAnswers x).pins = s.pins := rfl
@[simp] theorem State.unitStraps_setAnswers (s : State) (x : AnswerGen) : (s.setAnswers x).unitStraps = s.unitStraps := rfl
@[simp] theorem State.time_setAnswers (s : State) (x : AnswerGen) : (s.setAnswers x).time = s.time := rfl
@[simp] theorem State.ctx_setAnswers (s : State) (x : AnswerGen) : (s.setAnswers x).ctx = s.ctx := rfl
@[simp] theorem State.rules_setAnswers (s : State) (x : AnswerGen) : (s.setAnswers x).rules = s.rules := rfl
@[simp] theorem State.hold_setAnswers (s : State) (x : AnswerGen) : (s.setAnswers x).hold = s.hold := rfl
@[simp] theorem State.releaseTimer_setAnswers (s : State) (x : AnswerGen) : (s.setAnswers x).releaseTimer = s.releaseTimer := rfl
@[simp] theorem State.wake_setAnswers (s : State) (x : AnswerGen) : (s.setAnswers x).wake = s.wake := rfl
@[simp] theorem State.answers_setAnswers (s : State) (x : AnswerGen) : (s.setAnswers x).answers = x := rfl
@[simp] theorem State.line_setAnswers (s : State) (x : AnswerGen) : (s.setAnswers x).line = s.line := rfl
@[simp] theorem State.station_setAnswers (s : State) (x : AnswerGen) : (s.setAnswers x).station = s.station := rfl
@[simp] theorem State.transit_setAnswers (s : State) (x : AnswerGen) : (s.setAnswers x).transit = s.transit := rfl
@[simp] theorem State.responder_setAnswers (s : State) (x : AnswerGen) : (s.setAnswers x).responder = s.responder := rfl
@[simp] theorem State.notices_setAnswers (s : State) (x : AnswerGen) : (s.setAnswers x).notices = s.notices := rfl
@[simp] theorem State.freeCount_setAnswers (s : State) (x : AnswerGen) : (s.setAnswers x).freeCount = s.freeCount := rfl
@[simp] theorem State.pending_setLine (s : State) (x : LinePort) : (s.setLine x).pending = s.pending := rfl
@[simp] theorem State.pins_setLine (s : State) (x : LinePort) : (s.setLine x).pins = s.pins := rfl
@[simp] theorem State.unitStraps_setLine (s : State) (x : LinePort) : (s.setLine x).unitStraps = s.unitStraps := rfl
@[simp] theorem State.time_setLine (s : State) (x : LinePort) : (s.setLine x).time = s.time := rfl
@[simp] theorem State.ctx_setLine (s : State) (x : LinePort) : (s.setLine x).ctx = s.ctx := rfl
@[simp] theorem State.rules_setLine (s : State) (x : LinePort) : (s.setLine x).rules = s.rules := rfl
@[simp] theorem State.hold_setLine (s : State) (x : LinePort) : (s.setLine x).hold = s.hold := rfl
@[simp] theorem State.releaseTimer_setLine (s : State) (x : LinePort) : (s.setLine x).releaseTimer = s.releaseTimer := rfl
@[simp] theorem State.wake_setLine (s : State) (x : LinePort) : (s.setLine x).wake = s.wake := rfl
@[simp] theorem State.answers_setLine (s : State) (x : LinePort) : (s.setLine x).answers = s.answers := rfl
@[simp] theorem State.line_setLine (s : State) (x : LinePort) : (s.setLine x).line = x := rfl
@[simp] theorem State.station_setLine (s : State) (x : LinePort) : (s.setLine x).station = s.station := rfl
@[simp] theorem State.transit_setLine (s : State) (x : LinePort) : (s.setLine x).transit = s.transit := rfl
@[simp] theorem State.responder_setLine (s : State) (x : LinePort) : (s.setLine x).responder = s.responder := rfl
@[simp] theorem State.notices_setLine (s : State) (x : LinePort) : (s.setLine x).notices = s.notices := rfl
@[simp] theorem State.freeCount_setLine (s : State) (x : LinePort) : (s.setLine x).freeCount = s.freeCount := rfl
@[simp] theorem State.pending_setStation (s : State) (x : StationPort) : (s.setStation x).pending = s.pending := rfl
@[simp] theorem State.pins_setStation (s : State) (x : StationPort) : (s.setStation x).pins = s.pins := rfl
@[simp] theorem State.unitStraps_setStation (s : State) (x : StationPort) : (s.setStation x).unitStraps = s.unitStraps := rfl
@[simp] theorem State.time_setStation (s : State) (x : StationPort) : (s.setStation x).time = s.time := rfl
@[simp] theorem State.ctx_setStation (s : State) (x : StationPort) : (s.setStation x).ctx = s.ctx := rfl
@[simp] theorem State.rules_setStation (s : State) (x : StationPort) : (s.setStation x).rules = s.rules := rfl
@[simp] theorem State.hold_setStation (s : State) (x : StationPort) : (s.setStation x).hold = s.hold := rfl
@[simp] theorem State.releaseTimer_setStation (s : State) (x : StationPort) : (s.setStation x).releaseTimer = s.releaseTimer := rfl
@[simp] theorem State.wake_setStation (s : State) (x : StationPort) : (s.setStation x).wake = s.wake := rfl
@[simp] theorem State.answers_setStation (s : State) (x : StationPort) : (s.setStation x).answers = s.answers := rfl
@[simp] theorem State.line_setStation (s : State) (x : StationPort) : (s.setStation x).line = s.line := rfl
@[simp] theorem State.station_setStation (s : State) (x : StationPort) : (s.setStation x).station = x := rfl
@[simp] theorem State.transit_setStation (s : State) (x : StationPort) : (s.setStation x).transit = s.transit := rfl
@[simp] theorem State.responder_setStation (s : State) (x : StationPort) : (s.setStation x).responder = s.responder := rfl
@[simp] theorem State.notices_setStation (s : State) (x : StationPort) : (s.setStation x).notices = s.notices := rfl
@[simp] theorem State.freeCount_setStation (s : State) (x : StationPort) : (s.setStation x).freeCount = s.freeCount := rfl
@[simp] theorem State.pending_setTransit (s : State) (x : Transit) : (s.setTransit x).pending = s.pending := rfl
@[simp] theorem State.pins_setTransit (s : State) (x : Transit) : (s.setTransit x).pins = s.pins := rfl
@[simp] theorem State.unitStraps_setTransit (s : State) (x : Transit) : (s.setTransit x).unitStraps = s.unitStraps := rfl
@[simp] theorem State.time_setTransit (s : State) (x : Transit) : (s.setTransit x).time = s.time := rfl
@[simp] theorem State.ctx_setTransit (s : State) (x : Transit) : (s.setTransit x).ctx = s.ctx := rfl
@[simp] theorem State.rules_setTransit (s : State) (x : Transit) : (s.setTransit x).rules = s.rules := rfl
@[simp] theorem State.hold_setTransit (s : State) (x : Transit) : (s.setTransit x).hold = s.hold := rfl
@[simp] theorem State.releaseTimer_setTransit (s : State) (x : Transit) : (s.setTransit x).releaseTimer = s.releaseTimer := rfl
@[simp] theorem State.wake_setTransit (s : State) (x : Transit) : (s.setTransit x).wake = s.wake := rfl
@[simp] theorem State.answers_setTransit (s : State) (x : Transit) : (s.setTransit x).answers = s.answers := rfl
@[simp] theorem State.line_setTransit (s : State) (x : Transit) : (s.setTransit x).line = s.line := rfl
@[simp] theorem State.station_setTransit (s : State) (x : Transit) : (s.setTransit x).station = s.station := rfl
@[simp] theorem State.transit_setTransit (s : State) (x : Transit) : (s.setTransit x).transit = x := rfl
@[simp] theorem State.responder_setTransit (s : State) (x : Transit) : (s.setTransit x).responder = s.responder := rfl
@[simp] theorem State.notices_setTransit (s : State) (x : Transit) : (s.setTransit x).notices = s.notices := rfl
@[simp] theorem State.freeCount_setTransit (s : State) (x : Transit) : (s.setTransit x).freeCount = s.freeCount := rfl
@[simp] theorem State.pending_setResponder (s : State) (x : Responder) : (s.setResponder x).pending = s.pending := rfl
@[simp] theorem State.pins_setResponder (s : State) (x : Responder) : (s.setResponder x).pins = s.pins := rfl
@[simp] theorem State.unitStraps_setResponder (s : State) (x : Responder) : (s.setResponder x).unitStraps = s.unitStraps := rfl
@[simp] theorem State.time_setResponder (s : State) (x : Responder) : (s.setResponder x).time = s.time := rfl
@[simp] theorem State.ctx_setResponder (s : State) (x : Responder) : (s.setResponder x).ctx = s.ctx := rfl
@[simp] theorem State.rules_setResponder (s : State) (x : Responder) : (s.setResponder x).rules = s.rules := rfl
@[simp] theorem State.hold_setResponder (s : State) (x : Responder) : (s.setResponder x).hold = s.hold := rfl
@[simp] theorem State.releaseTimer_setResponder (s : State) (x : Responder) : (s.setResponder x).releaseTimer = s.releaseTimer := rfl
@[simp] theorem State.wake_setResponder (s : State) (x : Responder) : (s.setResponder x).wake = s.wake := rfl
@[simp] theorem State.answers_setResponder (s : State) (x : Responder) : (s.setResponder x).answers = s.answers := rfl
@[simp] theorem State.line_setResponder (s : State) (x : Responder) : (s.setResponder x).line = s.line := rfl
@[simp] theorem State.station_setResponder (s : State) (x : Responder) : (s.setResponder x).station = s.station := rfl
@[simp] theorem State.transit_setResponder (s : State) (x : Responder) : (s.setResponder x).transit = s.transit := rfl
@[simp] theorem State.responder_setResponder (s : State) (x : Responder) : (s.setResponder x).responder = x := rfl
@[simp] theorem State.notices_setResponder (s : State) (x : Responder) : (s.setResponder x).notices = s.notices := rfl
@[simp] theorem State.freeCount_setResponder (s : State) (x : Responder) : (s.setResponder x).freeCount = s.freeCount := rfl
@[simp] theorem State.pending_setNotices (s : State) (x : NoticeUnit) : (s.setNotices x).pending = s.pending := rfl
@[simp] theorem State.pins_setNotices (s : State) (x : NoticeUnit) : (s.setNotices x).pins = s.pins := rfl
@[simp] theorem State.unitStraps_setNotices (s : State) (x : NoticeUnit) : (s.setNotices x).unitStraps = s.unitStraps := rfl
@[simp] theorem State.time_setNotices (s : State) (x : NoticeUnit) : (s.setNotices x).time = s.time := rfl
@[simp] theorem State.ctx_setNotices (s : State) (x : NoticeUnit) : (s.setNotices x).ctx = s.ctx := rfl
@[simp] theorem State.rules_setNotices (s : State) (x : NoticeUnit) : (s.setNotices x).rules = s.rules := rfl
@[simp] theorem State.hold_setNotices (s : State) (x : NoticeUnit) : (s.setNotices x).hold = s.hold := rfl
@[simp] theorem State.releaseTimer_setNotices (s : State) (x : NoticeUnit) : (s.setNotices x).releaseTimer = s.releaseTimer := rfl
@[simp] theorem State.wake_setNotices (s : State) (x : NoticeUnit) : (s.setNotices x).wake = s.wake := rfl
@[simp] theorem State.answers_setNotices (s : State) (x : NoticeUnit) : (s.setNotices x).answers = s.answers := rfl
@[simp] theorem State.line_setNotices (s : State) (x : NoticeUnit) : (s.setNotices x).line = s.line := rfl
@[simp] theorem State.station_setNotices (s : State) (x : NoticeUnit) : (s.setNotices x).station = s.station := rfl
@[simp] theorem State.transit_setNotices (s : State) (x : NoticeUnit) : (s.setNotices x).transit = s.transit := rfl
@[simp] theorem State.responder_setNotices (s : State) (x : NoticeUnit) : (s.setNotices x).responder = s.responder := rfl
@[simp] theorem State.notices_setNotices (s : State) (x : NoticeUnit) : (s.setNotices x).notices = x := rfl
@[simp] theorem State.freeCount_setNotices (s : State) (x : NoticeUnit) : (s.setNotices x).freeCount = s.freeCount := rfl
@[simp] theorem State.pending_setFreeCount (s : State) (x : Nat) : (s.setFreeCount x).pending = s.pending := rfl
@[simp] theorem State.pins_setFreeCount (s : State) (x : Nat) : (s.setFreeCount x).pins = s.pins := rfl
@[simp] theorem State.unitStraps_setFreeCount (s : State) (x : Nat) : (s.setFreeCount x).unitStraps = s.unitStraps := rfl
@[simp] theorem State.time_setFreeCount (s : State) (x : Nat) : (s.setFreeCount x).time = s.time := rfl
@[simp] theorem State.ctx_setFreeCount (s : State) (x : Nat) : (s.setFreeCount x).ctx = s.ctx := rfl
@[simp] theorem State.rules_setFreeCount (s : State) (x : Nat) : (s.setFreeCount x).rules = s.rules := rfl
@[simp] theorem State.hold_setFreeCount (s : State) (x : Nat) : (s.setFreeCount x).hold = s.hold := rfl
@[simp] theorem State.releaseTimer_setFreeCount (s : State) (x : Nat) : (s.setFreeCount x).releaseTimer = s.releaseTimer := rfl
@[simp] theorem State.wake_setFreeCount (s : State) (x : Nat) : (s.setFreeCount x).wake = s.wake := rfl
@[simp] theorem State.answers_setFreeCount (s : State) (x : Nat) : (s.setFreeCount x).answers = s.answers := rfl
@[simp] theorem State.line_setFreeCount (s : State) (x : Nat) : (s.setFreeCount x).line = s.line := rfl
@[simp] theorem State.station_setFreeCount (s : State) (x : Nat) : (s.setFreeCount x).station = s.station := rfl
@[simp] theorem State.transit_setFreeCount (s : State) (x : Nat) : (s.setFreeCount x).transit = s.transit := rfl
@[simp] theorem State.responder_setFreeCount (s : State) (x : Nat) : (s.setFreeCount x).responder = s.responder := rfl
@[simp] theorem State.notices_setFreeCount (s : State) (x : Nat) : (s.setFreeCount x).notices = s.notices := rfl
@[simp] theorem State.freeCount_setFreeCount (s : State) (x : Nat) : (s.setFreeCount x).freeCount = x := rfl

/-! ## Accounts and configurations, one class against another -/

@[simp] theorem Accounts.get_set_self (a : Accounts) (c : HoldClass) (x : Account) : (a.set c x).get c = x := by
  cases c <;> rfl

theorem Accounts.get_set_ne (a : Accounts) {c d : HoldClass} (x : Account) (h : d ≠ c) :
    (a.set c x).get d = a.get d := by
  cases c <;> cases d <;> first | rfl | exact absurd rfl h

theorem Accounts.get_set (a : Accounts) (c d : HoldClass) (x : Account) :
    (a.set c x).get d = if d = c then x else a.get d := by
  cases c <;> cases d <;> rfl

theorem Accounts.ext_get {a b : Accounts} (h : ∀ c, a.get c = b.get c) : a = b := by
  cases a; cases b
  simp only [Accounts.mk.injEq]
  exact ⟨h .c0, h .c1, h .c2, h .c3, h .b⟩

theorem Configs.get_set (k : Configs) (c d : HoldClass) (x : ClassConfig) (hb : c ≠ .b) :
    (k.set c x).get d = if d = c then x else k.get d := by
  cases c <;> cases d <;> first | rfl | exact absurd rfl hb

/-! ## The counters of the ports: what a count touches -/

@[simp] theorem State.mapCounters_fields (s : State) (p : Port) (f : PortCounters → PortCounters) :
    (s.mapCounters p f).pending = s.pending ∧ (s.mapCounters p f).pins = s.pins ∧
    (s.mapCounters p f).unitStraps = s.unitStraps ∧ (s.mapCounters p f).time = s.time ∧
    (s.mapCounters p f).ctx = s.ctx ∧ (s.mapCounters p f).rules = s.rules ∧ (s.mapCounters p f).hold = s.hold ∧
    (s.mapCounters p f).releaseTimer = s.releaseTimer ∧ (s.mapCounters p f).wake = s.wake ∧
    (s.mapCounters p f).answers = s.answers ∧ (s.mapCounters p f).transit = s.transit ∧
    (s.mapCounters p f).responder = s.responder ∧ (s.mapCounters p f).notices = s.notices ∧
    (s.mapCounters p f).freeCount = s.freeCount := by
  cases p <;> simp [State.mapCounters]

end Sys2Proof.Machine
end

