-- ==== Sys2Proof/Laws/Frame.lean ====
section
/-! SUPPORT. What each shared operation leaves as it was, one lemma for each operation. -/

namespace Sys2Proof.Machine

@[simp] theorem State.raise_keeps (s : State) (b : NoticeBody) :
    (s.raise b).pending = s.pending ∧ (s.raise b).pins = s.pins ∧ (s.raise b).unitStraps = s.unitStraps ∧
    (s.raise b).time = s.time ∧ (s.raise b).ctx = s.ctx ∧ (s.raise b).rules = s.rules ∧ (s.raise b).hold = s.hold ∧
    (s.raise b).releaseTimer = s.releaseTimer ∧ (s.raise b).wake = s.wake ∧ (s.raise b).answers = s.answers ∧
    (s.raise b).line = s.line ∧ (s.raise b).station = s.station ∧ (s.raise b).transit = s.transit ∧
    (s.raise b).responder = s.responder ∧ (s.raise b).freeCount = s.freeCount := by
  simp [State.raise]

@[simp] theorem State.changeState_keeps (s : State) (e : StationState) (c : Cause) :
    (s.changeState e c).pending = s.pending ∧ (s.changeState e c).pins = s.pins ∧
    (s.changeState e c).unitStraps = s.unitStraps ∧ (s.changeState e c).time = s.time ∧
    (s.changeState e c).rules = s.rules ∧ (s.changeState e c).hold = s.hold ∧
    (s.changeState e c).releaseTimer = s.releaseTimer ∧ (s.changeState e c).wake = s.wake ∧
    (s.changeState e c).answers = s.answers ∧ (s.changeState e c).line = s.line ∧
    (s.changeState e c).station = s.station ∧ (s.changeState e c).transit = s.transit ∧
    (s.changeState e c).responder = s.responder ∧ (s.changeState e c).freeCount = s.freeCount := by
  simp [State.changeState]

@[simp] theorem State.startAttempt_keeps (s : State) (n : Nat) :
    (s.startAttempt n).pending = s.pending ∧ (s.startAttempt n).pins = s.pins ∧
    (s.startAttempt n).unitStraps = s.unitStraps ∧ (s.startAttempt n).time = s.time ∧ (s.startAttempt n).ctx = s.ctx ∧
    (s.startAttempt n).rules = s.rules ∧ (s.startAttempt n).hold = s.hold ∧
    (s.startAttempt n).releaseTimer = s.releaseTimer ∧ (s.startAttempt n).answers = s.answers ∧
    (s.startAttempt n).line = s.line ∧ (s.startAttempt n).station = s.station ∧
    (s.startAttempt n).transit = s.transit ∧ (s.startAttempt n).responder = s.responder ∧
    (s.startAttempt n).notices = s.notices ∧ (s.startAttempt n).freeCount = s.freeCount := by
  simp [State.startAttempt]

@[simp] theorem State.enterWaking_keeps (s : State) (c : Cause) :
    (s.enterWaking c).pending = s.pending ∧ (s.enterWaking c).pins = s.pins ∧
    (s.enterWaking c).unitStraps = s.unitStraps ∧ (s.enterWaking c).time = s.time ∧
    (s.enterWaking c).rules = s.rules ∧ (s.enterWaking c).hold = s.hold ∧
    (s.enterWaking c).releaseTimer = s.releaseTimer ∧ (s.enterWaking c).answers = s.answers ∧
    (s.enterWaking c).line = s.line ∧ (s.enterWaking c).station = s.station ∧ (s.enterWaking c).transit = s.transit ∧
    (s.enterWaking c).responder = s.responder ∧ (s.enterWaking c).freeCount = s.freeCount := by
  simp [State.enterWaking]

@[simp] theorem State.endSequence_keeps (s : State) :
    (s.endSequence).pending = s.pending ∧ (s.endSequence).pins = s.pins ∧ (s.endSequence).unitStraps = s.unitStraps ∧
    (s.endSequence).time = s.time ∧ (s.endSequence).ctx = s.ctx ∧ (s.endSequence).rules = s.rules ∧
    (s.endSequence).hold = s.hold ∧ (s.endSequence).releaseTimer = s.releaseTimer ∧
    (s.endSequence).answers = s.answers ∧ (s.endSequence).line = s.line ∧ (s.endSequence).station = s.station ∧
    (s.endSequence).transit = s.transit ∧ (s.endSequence).responder = s.responder ∧
    (s.endSequence).notices = s.notices ∧ (s.endSequence).freeCount = s.freeCount := by
  simp [State.endSequence]

@[simp] theorem State.wakeDecision_keeps (s : State) (c : Cause) :
    (s.wakeDecision c).pending = s.pending ∧ (s.wakeDecision c).pins = s.pins ∧
    (s.wakeDecision c).unitStraps = s.unitStraps ∧ (s.wakeDecision c).time = s.time ∧
    (s.wakeDecision c).rules = s.rules ∧ (s.wakeDecision c).hold = s.hold ∧
    (s.wakeDecision c).releaseTimer = s.releaseTimer ∧ (s.wakeDecision c).answers = s.answers ∧
    (s.wakeDecision c).line = s.line ∧ (s.wakeDecision c).station = s.station ∧
    (s.wakeDecision c).transit = s.transit ∧ (s.wakeDecision c).responder = s.responder ∧
    (s.wakeDecision c).freeCount = s.freeCount := by
  unfold State.wakeDecision; split <;> (try split) <;> simp

@[simp] theorem State.offerFrame_keeps (s : State) (c : HoldClass) (o : Origin) (f : Frame) :
    (s.offerFrame c o f).pending = s.pending ∧ (s.offerFrame c o f).pins = s.pins ∧
    (s.offerFrame c o f).unitStraps = s.unitStraps ∧ (s.offerFrame c o f).time = s.time ∧
    (s.offerFrame c o f).rules = s.rules ∧ (s.offerFrame c o f).releaseTimer = s.releaseTimer ∧
    (s.offerFrame c o f).answers = s.answers ∧ (s.offerFrame c o f).line = s.line ∧
    (s.offerFrame c o f).station = s.station ∧ (s.offerFrame c o f).transit = s.transit ∧
    (s.offerFrame c o f).responder = s.responder ∧ (s.offerFrame c o f).freeCount = s.freeCount := by
  unfold State.offerFrame; dsimp only; split <;> (try split) <;> simp

@[simp] theorem State.endLineTx_keeps (s : State) (e : TxEnd) :
    (s.endLineTx e).pending = s.pending ∧ (s.endLineTx e).pins = s.pins ∧ (s.endLineTx e).unitStraps = s.unitStraps ∧
    (s.endLineTx e).time = s.time ∧ (s.endLineTx e).ctx = s.ctx ∧ (s.endLineTx e).rules = s.rules ∧
    (s.endLineTx e).hold = s.hold ∧ (s.endLineTx e).releaseTimer = s.releaseTimer ∧ (s.endLineTx e).wake = s.wake ∧
    (s.endLineTx e).answers = s.answers ∧ (s.endLineTx e).station = s.station ∧ (s.endLineTx e).transit = s.transit ∧
    (s.endLineTx e).responder = s.responder ∧ (s.endLineTx e).notices = s.notices ∧
    (s.endLineTx e).freeCount = s.freeCount := by
  simp [State.endLineTx]

@[simp] theorem State.endStationTx_keeps (s : State) (e : TxEnd) :
    (s.endStationTx e).pending = s.pending ∧ (s.endStationTx e).pins = s.pins ∧
    (s.endStationTx e).unitStraps = s.unitStraps ∧ (s.endStationTx e).time = s.time ∧ (s.endStationTx e).ctx = s.ctx ∧
    (s.endStationTx e).rules = s.rules ∧ (s.endStationTx e).hold = s.hold ∧
    (s.endStationTx e).releaseTimer = s.releaseTimer ∧ (s.endStationTx e).wake = s.wake ∧
    (s.endStationTx e).answers = s.answers ∧ (s.endStationTx e).line = s.line ∧
    (s.endStationTx e).transit = s.transit ∧ (s.endStationTx e).responder = s.responder ∧
    (s.endStationTx e).notices = s.notices ∧ (s.endStationTx e).freeCount = s.freeCount := by
  simp [State.endStationTx]

@[simp] theorem State.countReleaseCut_keeps (s : State) :
    (s.countReleaseCut).pending = s.pending ∧ (s.countReleaseCut).pins = s.pins ∧
    (s.countReleaseCut).unitStraps = s.unitStraps ∧ (s.countReleaseCut).time = s.time ∧
    (s.countReleaseCut).ctx = s.ctx ∧ (s.countReleaseCut).rules = s.rules ∧ (s.countReleaseCut).hold = s.hold ∧
    (s.countReleaseCut).releaseTimer = s.releaseTimer ∧ (s.countReleaseCut).wake = s.wake ∧
    (s.countReleaseCut).answers = s.answers ∧ (s.countReleaseCut).line = s.line ∧
    (s.countReleaseCut).transit = s.transit ∧ (s.countReleaseCut).responder = s.responder ∧
    (s.countReleaseCut).notices = s.notices ∧ (s.countReleaseCut).freeCount = s.freeCount := by
  unfold State.countReleaseCut; split <;> simp

@[simp] theorem State.countIntakeError_keeps (s : State) (p : Port) :
    (s.countIntakeError p).pending = s.pending ∧ (s.countIntakeError p).pins = s.pins ∧
    (s.countIntakeError p).unitStraps = s.unitStraps ∧ (s.countIntakeError p).time = s.time ∧
    (s.countIntakeError p).ctx = s.ctx ∧ (s.countIntakeError p).rules = s.rules ∧
    (s.countIntakeError p).hold = s.hold ∧ (s.countIntakeError p).releaseTimer = s.releaseTimer ∧
    (s.countIntakeError p).wake = s.wake ∧ (s.countIntakeError p).answers = s.answers ∧
    (s.countIntakeError p).transit = s.transit ∧ (s.countIntakeError p).responder = s.responder ∧
    (s.countIntakeError p).notices = s.notices ∧ (s.countIntakeError p).freeCount = s.freeCount := by
  simp [State.countIntakeError]

@[simp] theorem State.countReceived_keeps (s : State) (p : Port) :
    (s.countReceived p).pending = s.pending ∧ (s.countReceived p).pins = s.pins ∧
    (s.countReceived p).unitStraps = s.unitStraps ∧ (s.countReceived p).time = s.time ∧
    (s.countReceived p).ctx = s.ctx ∧ (s.countReceived p).rules = s.rules ∧ (s.countReceived p).hold = s.hold ∧
    (s.countReceived p).releaseTimer = s.releaseTimer ∧ (s.countReceived p).wake = s.wake ∧
    (s.countReceived p).answers = s.answers ∧ (s.countReceived p).transit = s.transit ∧
    (s.countReceived p).responder = s.responder ∧ (s.countReceived p).notices = s.notices ∧
    (s.countReceived p).freeCount = s.freeCount := by
  simp [State.countReceived]

@[simp] theorem State.countConsumed_keeps (s : State) (p : Port) :
    (s.countConsumed p).pending = s.pending ∧ (s.countConsumed p).pins = s.pins ∧
    (s.countConsumed p).unitStraps = s.unitStraps ∧ (s.countConsumed p).time = s.time ∧
    (s.countConsumed p).ctx = s.ctx ∧ (s.countConsumed p).rules = s.rules ∧ (s.countConsumed p).hold = s.hold ∧
    (s.countConsumed p).releaseTimer = s.releaseTimer ∧ (s.countConsumed p).wake = s.wake ∧
    (s.countConsumed p).answers = s.answers ∧ (s.countConsumed p).transit = s.transit ∧
    (s.countConsumed p).responder = s.responder ∧ (s.countConsumed p).notices = s.notices ∧
    (s.countConsumed p).freeCount = s.freeCount := by
  simp [State.countConsumed]

@[simp] theorem State.countTransmitted_keeps (s : State) (p : Port) :
    (s.countTransmitted p).pending = s.pending ∧ (s.countTransmitted p).pins = s.pins ∧
    (s.countTransmitted p).unitStraps = s.unitStraps ∧ (s.countTransmitted p).time = s.time ∧
    (s.countTransmitted p).ctx = s.ctx ∧ (s.countTransmitted p).rules = s.rules ∧
    (s.countTransmitted p).hold = s.hold ∧ (s.countTransmitted p).releaseTimer = s.releaseTimer ∧
    (s.countTransmitted p).wake = s.wake ∧ (s.countTransmitted p).answers = s.answers ∧
    (s.countTransmitted p).transit = s.transit ∧ (s.countTransmitted p).responder = s.responder ∧
    (s.countTransmitted p).notices = s.notices ∧ (s.countTransmitted p).freeCount = s.freeCount := by
  simp [State.countTransmitted]

@[simp] theorem State.countTransitDrop_keeps (s : State) (p : Port) :
    (s.countTransitDrop p).pending = s.pending ∧ (s.countTransitDrop p).pins = s.pins ∧
    (s.countTransitDrop p).unitStraps = s.unitStraps ∧ (s.countTransitDrop p).time = s.time ∧
    (s.countTransitDrop p).ctx = s.ctx ∧ (s.countTransitDrop p).rules = s.rules ∧
    (s.countTransitDrop p).hold = s.hold ∧ (s.countTransitDrop p).releaseTimer = s.releaseTimer ∧
    (s.countTransitDrop p).wake = s.wake ∧ (s.countTransitDrop p).answers = s.answers ∧
    (s.countTransitDrop p).transit = s.transit ∧ (s.countTransitDrop p).responder = s.responder ∧
    (s.countTransitDrop p).notices = s.notices ∧ (s.countTransitDrop p).freeCount = s.freeCount := by
  simp [State.countTransitDrop]

@[simp] theorem State.countLinkDown_keeps (s : State) (p : Port) (n : Nat) :
    (s.countLinkDown p n).pending = s.pending ∧ (s.countLinkDown p n).pins = s.pins ∧
    (s.countLinkDown p n).unitStraps = s.unitStraps ∧ (s.countLinkDown p n).time = s.time ∧
    (s.countLinkDown p n).ctx = s.ctx ∧ (s.countLinkDown p n).rules = s.rules ∧ (s.countLinkDown p n).hold = s.hold ∧
    (s.countLinkDown p n).releaseTimer = s.releaseTimer ∧ (s.countLinkDown p n).wake = s.wake ∧
    (s.countLinkDown p n).answers = s.answers ∧ (s.countLinkDown p n).transit = s.transit ∧
    (s.countLinkDown p n).responder = s.responder ∧ (s.countLinkDown p n).notices = s.notices ∧
    (s.countLinkDown p n).freeCount = s.freeCount := by
  simp [State.countLinkDown]

@[simp] theorem State.countMalformed_keeps (s : State) (p : Port) :
    (s.countMalformed p).pending = s.pending ∧ (s.countMalformed p).pins = s.pins ∧
    (s.countMalformed p).unitStraps = s.unitStraps ∧ (s.countMalformed p).time = s.time ∧
    (s.countMalformed p).ctx = s.ctx ∧ (s.countMalformed p).rules = s.rules ∧ (s.countMalformed p).hold = s.hold ∧
    (s.countMalformed p).releaseTimer = s.releaseTimer ∧ (s.countMalformed p).wake = s.wake ∧
    (s.countMalformed p).answers = s.answers ∧ (s.countMalformed p).line = s.line ∧
    (s.countMalformed p).station = s.station ∧ (s.countMalformed p).transit = s.transit ∧
    (s.countMalformed p).notices = s.notices ∧ (s.countMalformed p).freeCount = s.freeCount := by
  cases p <;> simp [State.countMalformed]

@[simp] theorem State.countOverrun_keeps (s : State) (p : Port) :
    (s.countOverrun p).pending = s.pending ∧ (s.countOverrun p).pins = s.pins ∧
    (s.countOverrun p).unitStraps = s.unitStraps ∧ (s.countOverrun p).time = s.time ∧ (s.countOverrun p).ctx = s.ctx ∧
    (s.countOverrun p).rules = s.rules ∧ (s.countOverrun p).hold = s.hold ∧
    (s.countOverrun p).releaseTimer = s.releaseTimer ∧ (s.countOverrun p).wake = s.wake ∧
    (s.countOverrun p).answers = s.answers ∧ (s.countOverrun p).line = s.line ∧
    (s.countOverrun p).station = s.station ∧ (s.countOverrun p).transit = s.transit ∧
    (s.countOverrun p).notices = s.notices ∧ (s.countOverrun p).freeCount = s.freeCount := by
  cases p <;> simp [State.countOverrun]

@[simp] theorem State.setBinding_keeps (s : State) (b : Option Binding) :
    (s.setBinding b).pending = s.pending ∧ (s.setBinding b).pins = s.pins ∧
    (s.setBinding b).unitStraps = s.unitStraps ∧ (s.setBinding b).time = s.time ∧ (s.setBinding b).ctx = s.ctx ∧
    (s.setBinding b).rules = s.rules ∧ (s.setBinding b).hold = s.hold ∧
    (s.setBinding b).releaseTimer = s.releaseTimer ∧ (s.setBinding b).wake = s.wake ∧
    (s.setBinding b).answers = s.answers ∧ (s.setBinding b).line = s.line ∧ (s.setBinding b).station = s.station ∧
    (s.setBinding b).transit = s.transit ∧ (s.setBinding b).notices = s.notices ∧
    (s.setBinding b).freeCount = s.freeCount := by
  simp [State.setBinding]

@[simp] theorem State.endBinding_keeps (s : State) :
    (s.endBinding).pending = s.pending ∧ (s.endBinding).pins = s.pins ∧ (s.endBinding).unitStraps = s.unitStraps ∧
    (s.endBinding).time = s.time ∧ (s.endBinding).ctx = s.ctx ∧ (s.endBinding).rules = s.rules ∧
    (s.endBinding).hold = s.hold ∧ (s.endBinding).releaseTimer = s.releaseTimer ∧ (s.endBinding).wake = s.wake ∧
    (s.endBinding).answers = s.answers ∧ (s.endBinding).line = s.line ∧ (s.endBinding).station = s.station ∧
    (s.endBinding).transit = s.transit ∧ (s.endBinding).freeCount = s.freeCount := by
  simp [State.endBinding]

@[simp] theorem State.place_keeps (s : State) (p : Port) (f : CtlFrame) :
    (s.place p f).pending = s.pending ∧ (s.place p f).pins = s.pins ∧ (s.place p f).unitStraps = s.unitStraps ∧
    (s.place p f).time = s.time ∧ (s.place p f).ctx = s.ctx ∧ (s.place p f).rules = s.rules ∧
    (s.place p f).hold = s.hold ∧ (s.place p f).releaseTimer = s.releaseTimer ∧ (s.place p f).wake = s.wake ∧
    (s.place p f).answers = s.answers ∧ (s.place p f).transit = s.transit ∧ (s.place p f).responder = s.responder ∧
    (s.place p f).notices = s.notices ∧ (s.place p f).freeCount = s.freeCount := by
  cases p <;> simp [State.place]

@[simp] theorem State.answer_keeps (s : State) (c : Ctl) (x : Status) (b : List Byte) :
    (s.answer c x b).pending = s.pending ∧ (s.answer c x b).pins = s.pins ∧
    (s.answer c x b).unitStraps = s.unitStraps ∧ (s.answer c x b).time = s.time ∧ (s.answer c x b).ctx = s.ctx ∧
    (s.answer c x b).rules = s.rules ∧ (s.answer c x b).hold = s.hold ∧
    (s.answer c x b).releaseTimer = s.releaseTimer ∧ (s.answer c x b).wake = s.wake ∧
    (s.answer c x b).answers = s.answers ∧ (s.answer c x b).transit = s.transit ∧
    (s.answer c x b).responder = s.responder ∧ (s.answer c x b).notices = s.notices ∧
    (s.answer c x b).freeCount = s.freeCount := by
  simp [State.answer]

@[simp] theorem State.setRx_keeps (s : State) (p : Port) (x : Option Frame) :
    (s.setRx p x).pending = s.pending ∧ (s.setRx p x).pins = s.pins ∧ (s.setRx p x).unitStraps = s.unitStraps ∧
    (s.setRx p x).time = s.time ∧ (s.setRx p x).ctx = s.ctx ∧ (s.setRx p x).rules = s.rules ∧
    (s.setRx p x).hold = s.hold ∧ (s.setRx p x).releaseTimer = s.releaseTimer ∧ (s.setRx p x).wake = s.wake ∧
    (s.setRx p x).answers = s.answers ∧ (s.setRx p x).transit = s.transit ∧ (s.setRx p x).responder = s.responder ∧
    (s.setRx p x).notices = s.notices ∧ (s.setRx p x).freeCount = s.freeCount := by
  cases p <;> simp [State.setRx]

@[simp] theorem State.sendNotice_keeps (s : State) (f : CtlFrame) :
    (s.sendNotice f).pending = s.pending ∧ (s.sendNotice f).pins = s.pins ∧
    (s.sendNotice f).unitStraps = s.unitStraps ∧ (s.sendNotice f).time = s.time ∧ (s.sendNotice f).ctx = s.ctx ∧
    (s.sendNotice f).rules = s.rules ∧ (s.sendNotice f).hold = s.hold ∧
    (s.sendNotice f).releaseTimer = s.releaseTimer ∧ (s.sendNotice f).wake = s.wake ∧
    (s.sendNotice f).answers = s.answers ∧ (s.sendNotice f).transit = s.transit ∧
    (s.sendNotice f).responder = s.responder ∧ (s.sendNotice f).notices = s.notices ∧
    (s.sendNotice f).freeCount = s.freeCount := by
  unfold State.sendNotice; split <;> simp

@[simp] theorem State.noticeOffer_keeps (s : State) :
    (s.noticeOffer).pending = s.pending ∧ (s.noticeOffer).pins = s.pins ∧ (s.noticeOffer).unitStraps = s.unitStraps ∧
    (s.noticeOffer).time = s.time ∧ (s.noticeOffer).ctx = s.ctx ∧ (s.noticeOffer).rules = s.rules ∧
    (s.noticeOffer).hold = s.hold ∧ (s.noticeOffer).releaseTimer = s.releaseTimer ∧ (s.noticeOffer).wake = s.wake ∧
    (s.noticeOffer).answers = s.answers ∧ (s.noticeOffer).transit = s.transit ∧
    (s.noticeOffer).responder = s.responder ∧ (s.noticeOffer).freeCount = s.freeCount := by
  unfold State.noticeOffer; split <;> simp

@[simp] theorem State.lineChoice_keeps (s : State) :
    (s.lineChoice).pending = s.pending ∧ (s.lineChoice).pins = s.pins ∧ (s.lineChoice).unitStraps = s.unitStraps ∧
    (s.lineChoice).time = s.time ∧ (s.lineChoice).ctx = s.ctx ∧ (s.lineChoice).rules = s.rules ∧
    (s.lineChoice).hold = s.hold ∧ (s.lineChoice).releaseTimer = s.releaseTimer ∧ (s.lineChoice).wake = s.wake ∧
    (s.lineChoice).answers = s.answers ∧ (s.lineChoice).station = s.station ∧ (s.lineChoice).transit = s.transit ∧
    (s.lineChoice).responder = s.responder ∧ (s.lineChoice).notices = s.notices ∧
    (s.lineChoice).freeCount = s.freeCount := by
  simp [State.lineChoice]

@[simp] theorem State.stationChoice_keeps (s : State) :
    (s.stationChoice).pending = s.pending ∧ (s.stationChoice).pins = s.pins ∧
    (s.stationChoice).unitStraps = s.unitStraps ∧ (s.stationChoice).time = s.time ∧ (s.stationChoice).ctx = s.ctx ∧
    (s.stationChoice).rules = s.rules ∧ (s.stationChoice).hold = s.hold ∧
    (s.stationChoice).releaseTimer = s.releaseTimer ∧ (s.stationChoice).wake = s.wake ∧
    (s.stationChoice).answers = s.answers ∧ (s.stationChoice).line = s.line ∧ (s.stationChoice).transit = s.transit ∧
    (s.stationChoice).responder = s.responder ∧ (s.stationChoice).notices = s.notices ∧
    (s.stationChoice).freeCount = s.freeCount := by
  simp [State.stationChoice]

@[simp] theorem State.releaseEnd_keeps (s : State) :
    (s.releaseEnd).pending = s.pending ∧ (s.releaseEnd).pins = s.pins ∧ (s.releaseEnd).unitStraps = s.unitStraps ∧
    (s.releaseEnd).time = s.time ∧ (s.releaseEnd).rules = s.rules ∧ (s.releaseEnd).hold = s.hold ∧
    (s.releaseEnd).wake = s.wake ∧ (s.releaseEnd).answers = s.answers ∧ (s.releaseEnd).line = s.line ∧
    (s.releaseEnd).station = s.station ∧ (s.releaseEnd).transit = s.transit ∧ (s.releaseEnd).responder = s.responder ∧
    (s.releaseEnd).freeCount = s.freeCount := by
  simp [State.releaseEnd]

@[simp] theorem State.drainEnd_keeps (s : State) :
    (s.drainEnd).pending = s.pending ∧ (s.drainEnd).pins = s.pins ∧ (s.drainEnd).unitStraps = s.unitStraps ∧
    (s.drainEnd).time = s.time ∧ (s.drainEnd).rules = s.rules ∧ (s.drainEnd).hold = s.hold ∧
    (s.drainEnd).releaseTimer = s.releaseTimer ∧ (s.drainEnd).answers = s.answers ∧ (s.drainEnd).line = s.line ∧
    (s.drainEnd).station = s.station ∧ (s.drainEnd).transit = s.transit ∧ (s.drainEnd).responder = s.responder ∧
    (s.drainEnd).freeCount = s.freeCount := by
  unfold State.drainEnd; split <;> simp

@[simp] theorem State.beginDelivery_keeps (s : State) :
    (s.beginDelivery).pending = s.pending ∧ (s.beginDelivery).pins = s.pins ∧
    (s.beginDelivery).unitStraps = s.unitStraps ∧ (s.beginDelivery).time = s.time ∧ (s.beginDelivery).ctx = s.ctx ∧
    (s.beginDelivery).rules = s.rules ∧ (s.beginDelivery).releaseTimer = s.releaseTimer ∧
    (s.beginDelivery).wake = s.wake ∧ (s.beginDelivery).answers = s.answers ∧ (s.beginDelivery).line = s.line ∧
    (s.beginDelivery).station = s.station ∧ (s.beginDelivery).transit = s.transit ∧
    (s.beginDelivery).responder = s.responder ∧ (s.beginDelivery).notices = s.notices ∧
    (s.beginDelivery).freeCount = s.freeCount := by
  simp [State.beginDelivery]

@[simp] theorem State.compose_keeps (s : State) (f : Frame) (t : Fin 16) :
    (s.compose f t).pending = s.pending ∧ (s.compose f t).pins = s.pins ∧ (s.compose f t).unitStraps = s.unitStraps ∧
    (s.compose f t).time = s.time ∧ (s.compose f t).ctx = s.ctx ∧ (s.compose f t).rules = s.rules ∧
    (s.compose f t).hold = s.hold ∧ (s.compose f t).releaseTimer = s.releaseTimer ∧ (s.compose f t).wake = s.wake ∧
    (s.compose f t).line = s.line ∧ (s.compose f t).station = s.station ∧ (s.compose f t).transit = s.transit ∧
    (s.compose f t).responder = s.responder ∧ (s.compose f t).notices = s.notices ∧
    (s.compose f t).freeCount = s.freeCount := by
  unfold State.compose; dsimp only; split <;> (try split) <;> (try split) <;> simp

@[simp] theorem State.dispose_keeps (s : State) (i : Nat) (d : Disposition) (f : Frame) :
    (s.dispose i d f).pending = s.pending ∧ (s.dispose i d f).pins = s.pins ∧
    (s.dispose i d f).unitStraps = s.unitStraps ∧ (s.dispose i d f).time = s.time ∧
    (s.dispose i d f).rules = s.rules ∧ (s.dispose i d f).releaseTimer = s.releaseTimer ∧
    (s.dispose i d f).line = s.line ∧ (s.dispose i d f).station = s.station ∧ (s.dispose i d f).transit = s.transit ∧
    (s.dispose i d f).responder = s.responder ∧ (s.dispose i d f).freeCount = s.freeCount := by
  cases d <;> simp [State.dispose]

@[simp] theorem State.disposeByDefault_keeps (s : State) (f : Frame) :
    (s.disposeByDefault f).pending = s.pending ∧ (s.disposeByDefault f).pins = s.pins ∧
    (s.disposeByDefault f).unitStraps = s.unitStraps ∧ (s.disposeByDefault f).time = s.time ∧
    (s.disposeByDefault f).releaseTimer = s.releaseTimer ∧ (s.disposeByDefault f).answers = s.answers ∧
    (s.disposeByDefault f).line = s.line ∧ (s.disposeByDefault f).station = s.station ∧
    (s.disposeByDefault f).transit = s.transit ∧ (s.disposeByDefault f).responder = s.responder ∧
    (s.disposeByDefault f).freeCount = s.freeCount := by
  unfold State.disposeByDefault; dsimp only; split <;> simp

@[simp] theorem State.classify_keeps (s : State) (f : Frame) :
    (s.classify f).pending = s.pending ∧ (s.classify f).pins = s.pins ∧ (s.classify f).unitStraps = s.unitStraps ∧
    (s.classify f).time = s.time ∧ (s.classify f).releaseTimer = s.releaseTimer ∧ (s.classify f).line = s.line ∧
    (s.classify f).station = s.station ∧ (s.classify f).transit = s.transit ∧ (s.classify f).responder = s.responder ∧
    (s.classify f).freeCount = s.freeCount := by
  unfold State.classify; dsimp only; split <;> (try split) <;> simp

@[simp] theorem State.joinToStation_keeps (s : State) (f : Frame) :
    (s.joinToStation f).pending = s.pending ∧ (s.joinToStation f).pins = s.pins ∧
    (s.joinToStation f).unitStraps = s.unitStraps ∧ (s.joinToStation f).time = s.time ∧
    (s.joinToStation f).ctx = s.ctx ∧ (s.joinToStation f).rules = s.rules ∧ (s.joinToStation f).hold = s.hold ∧
    (s.joinToStation f).releaseTimer = s.releaseTimer ∧ (s.joinToStation f).wake = s.wake ∧
    (s.joinToStation f).answers = s.answers ∧ (s.joinToStation f).responder = s.responder ∧
    (s.joinToStation f).notices = s.notices ∧ (s.joinToStation f).freeCount = s.freeCount := by
  unfold State.joinToStation; split <;> (try split) <;> simp

@[simp] theorem State.joinToLine_keeps (s : State) (f : Frame) :
    (s.joinToLine f).pending = s.pending ∧ (s.joinToLine f).pins = s.pins ∧
    (s.joinToLine f).unitStraps = s.unitStraps ∧ (s.joinToLine f).time = s.time ∧ (s.joinToLine f).ctx = s.ctx ∧
    (s.joinToLine f).rules = s.rules ∧ (s.joinToLine f).hold = s.hold ∧
    (s.joinToLine f).releaseTimer = s.releaseTimer ∧ (s.joinToLine f).wake = s.wake ∧
    (s.joinToLine f).answers = s.answers ∧ (s.joinToLine f).responder = s.responder ∧
    (s.joinToLine f).notices = s.notices ∧ (s.joinToLine f).freeCount = s.freeCount := by
  unfold State.joinToLine; split <;> (try split) <;> simp

@[simp] theorem State.lineTraffic_keeps (s : State) (f : Frame) :
    (s.lineTraffic f).pending = s.pending ∧ (s.lineTraffic f).pins = s.pins ∧
    (s.lineTraffic f).unitStraps = s.unitStraps ∧ (s.lineTraffic f).time = s.time ∧
    (s.lineTraffic f).releaseTimer = s.releaseTimer ∧ (s.lineTraffic f).responder = s.responder ∧
    (s.lineTraffic f).freeCount = s.freeCount := by
  unfold State.lineTraffic; split <;> simp

@[simp] theorem State.warmClear_keeps (s : State) :
    (s.warmClear).pending = s.pending ∧ (s.warmClear).pins = s.pins ∧ (s.warmClear).unitStraps = s.unitStraps ∧
    (s.warmClear).time = s.time ∧ (s.warmClear).rules = s.rules ∧ (s.warmClear).notices = s.notices ∧
    (s.warmClear).freeCount = s.freeCount := by
  simp [State.warmClear]

@[simp] theorem State.warmReset_keeps (s : State) :
    (s.warmReset).pending = s.pending ∧ (s.warmReset).pins = s.pins ∧ (s.warmReset).unitStraps = s.unitStraps ∧
    (s.warmReset).time = s.time ∧ (s.warmReset).rules = s.rules ∧ (s.warmReset).freeCount = s.freeCount := by
  unfold State.warmReset; split <;> simp

@[simp] theorem State.blocksReset_keeps (s : State) (l t : Bool) :
    (s.blocksReset l t).pending = s.pending ∧ (s.blocksReset l t).pins = s.pins ∧
    (s.blocksReset l t).unitStraps = s.unitStraps ∧ (s.blocksReset l t).time = s.time ∧
    (s.blocksReset l t).freeCount = s.freeCount := by
  simp [State.blocksReset]

@[simp] theorem State.coldReset_keeps (s : State) :
    (s.coldReset).pending = s.pending ∧ (s.coldReset).pins = s.pins ∧ (s.coldReset).unitStraps = s.unitStraps ∧
    (s.coldReset).time = s.time ∧ (s.coldReset).freeCount = s.freeCount := by
  simp [State.coldReset]

@[simp] theorem State.takeReset_keeps (s : State) :
    (s.takeReset).pending = s.pending ∧ (s.takeReset).pins = s.pins ∧ (s.takeReset).unitStraps = s.unitStraps ∧
    (s.takeReset).time = s.time ∧ (s.takeReset).freeCount = s.freeCount := by
  unfold State.takeReset; split <;> simp

@[simp] theorem State.settleReset_keeps (s : State) :
    (s.settleReset).pending = s.pending ∧ (s.settleReset).pins = s.pins ∧ (s.settleReset).unitStraps = s.unitStraps ∧
    (s.settleReset).time = s.time ∧ (s.settleReset).freeCount = s.freeCount := by
  simp only [State.settleReset, State.when]; split <;> simp

@[simp] theorem State.settleReleaseEnd_keeps (s : State) :
    (s.settleReleaseEnd).pending = s.pending ∧ (s.settleReleaseEnd).pins = s.pins ∧
    (s.settleReleaseEnd).unitStraps = s.unitStraps ∧ (s.settleReleaseEnd).time = s.time ∧
    (s.settleReleaseEnd).rules = s.rules ∧ (s.settleReleaseEnd).hold = s.hold ∧ (s.settleReleaseEnd).wake = s.wake ∧
    (s.settleReleaseEnd).answers = s.answers ∧ (s.settleReleaseEnd).line = s.line ∧
    (s.settleReleaseEnd).station = s.station ∧ (s.settleReleaseEnd).transit = s.transit ∧
    (s.settleReleaseEnd).responder = s.responder ∧ (s.settleReleaseEnd).freeCount = s.freeCount := by
  simp only [State.settleReleaseEnd, State.when]; split <;> simp

@[simp] theorem State.settleDrainEnd_keeps (s : State) :
    (s.settleDrainEnd).pending = s.pending ∧ (s.settleDrainEnd).pins = s.pins ∧
    (s.settleDrainEnd).unitStraps = s.unitStraps ∧ (s.settleDrainEnd).time = s.time ∧
    (s.settleDrainEnd).rules = s.rules ∧ (s.settleDrainEnd).hold = s.hold ∧
    (s.settleDrainEnd).releaseTimer = s.releaseTimer ∧ (s.settleDrainEnd).answers = s.answers ∧
    (s.settleDrainEnd).line = s.line ∧ (s.settleDrainEnd).station = s.station ∧
    (s.settleDrainEnd).transit = s.transit ∧ (s.settleDrainEnd).responder = s.responder ∧
    (s.settleDrainEnd).freeCount = s.freeCount := by
  simp only [State.settleDrainEnd, State.when]; split <;> simp

@[simp] theorem State.settleDelivery_keeps (s : State) :
    (s.settleDelivery).pending = s.pending ∧ (s.settleDelivery).pins = s.pins ∧
    (s.settleDelivery).unitStraps = s.unitStraps ∧ (s.settleDelivery).time = s.time ∧ (s.settleDelivery).ctx = s.ctx ∧
    (s.settleDelivery).rules = s.rules ∧ (s.settleDelivery).releaseTimer = s.releaseTimer ∧
    (s.settleDelivery).wake = s.wake ∧ (s.settleDelivery).answers = s.answers ∧ (s.settleDelivery).line = s.line ∧
    (s.settleDelivery).station = s.station ∧ (s.settleDelivery).transit = s.transit ∧
    (s.settleDelivery).responder = s.responder ∧ (s.settleDelivery).notices = s.notices ∧
    (s.settleDelivery).freeCount = s.freeCount := by
  simp only [State.settleDelivery, State.when]; split <;> simp

@[simp] theorem State.settleLine_keeps (s : State) :
    (s.settleLine).pending = s.pending ∧ (s.settleLine).pins = s.pins ∧ (s.settleLine).unitStraps = s.unitStraps ∧
    (s.settleLine).time = s.time ∧ (s.settleLine).ctx = s.ctx ∧ (s.settleLine).rules = s.rules ∧
    (s.settleLine).hold = s.hold ∧ (s.settleLine).releaseTimer = s.releaseTimer ∧ (s.settleLine).wake = s.wake ∧
    (s.settleLine).answers = s.answers ∧ (s.settleLine).station = s.station ∧ (s.settleLine).transit = s.transit ∧
    (s.settleLine).responder = s.responder ∧ (s.settleLine).notices = s.notices ∧
    (s.settleLine).freeCount = s.freeCount := by
  simp only [State.settleLine, State.when]; split <;> simp

@[simp] theorem State.settleStation_keeps (s : State) :
    (s.settleStation).pending = s.pending ∧ (s.settleStation).pins = s.pins ∧
    (s.settleStation).unitStraps = s.unitStraps ∧ (s.settleStation).time = s.time ∧ (s.settleStation).ctx = s.ctx ∧
    (s.settleStation).rules = s.rules ∧ (s.settleStation).hold = s.hold ∧
    (s.settleStation).releaseTimer = s.releaseTimer ∧ (s.settleStation).wake = s.wake ∧
    (s.settleStation).answers = s.answers ∧ (s.settleStation).line = s.line ∧ (s.settleStation).transit = s.transit ∧
    (s.settleStation).responder = s.responder ∧ (s.settleStation).notices = s.notices ∧
    (s.settleStation).freeCount = s.freeCount := by
  simp only [State.settleStation, State.when]; split <;> simp

@[simp] theorem State.settleOffer_keeps (s : State) :
    (s.settleOffer).pending = s.pending ∧ (s.settleOffer).pins = s.pins ∧ (s.settleOffer).unitStraps = s.unitStraps ∧
    (s.settleOffer).time = s.time ∧ (s.settleOffer).ctx = s.ctx ∧ (s.settleOffer).rules = s.rules ∧
    (s.settleOffer).hold = s.hold ∧ (s.settleOffer).releaseTimer = s.releaseTimer ∧ (s.settleOffer).wake = s.wake ∧
    (s.settleOffer).answers = s.answers ∧ (s.settleOffer).transit = s.transit ∧
    (s.settleOffer).responder = s.responder ∧ (s.settleOffer).freeCount = s.freeCount := by
  simp only [State.settleOffer, State.when]; split <;> simp

@[simp] theorem State.settle_keeps (s : State) :
    (s.settle).pending = s.pending ∧ (s.settle).pins = s.pins ∧ (s.settle).unitStraps = s.unitStraps ∧
    (s.settle).time = s.time ∧ (s.settle).freeCount = s.freeCount := by
  simp [State.settle]

@[simp] theorem State.abandon_keeps (s : State) (p : Port) (a : Option Frame) :
    (s.abandon p a).pending = s.pending ∧ (s.abandon p a).pins = s.pins ∧ (s.abandon p a).unitStraps = s.unitStraps ∧
    (s.abandon p a).time = s.time ∧ (s.abandon p a).ctx = s.ctx ∧ (s.abandon p a).rules = s.rules ∧
    (s.abandon p a).hold = s.hold ∧ (s.abandon p a).releaseTimer = s.releaseTimer ∧ (s.abandon p a).wake = s.wake ∧
    (s.abandon p a).answers = s.answers ∧ (s.abandon p a).transit = s.transit ∧
    (s.abandon p a).responder = s.responder ∧ (s.abandon p a).notices = s.notices ∧
    (s.abandon p a).freeCount = s.freeCount := by
  unfold State.abandon; split <;> simp

@[simp] theorem State.loseLine_keeps (s : State) :
    (s.loseLine).pending = s.pending ∧ (s.loseLine).unitStraps = s.unitStraps ∧ (s.loseLine).time = s.time ∧
    (s.loseLine).ctx = s.ctx ∧ (s.loseLine).rules = s.rules ∧ (s.loseLine).hold = s.hold ∧
    (s.loseLine).releaseTimer = s.releaseTimer ∧ (s.loseLine).wake = s.wake ∧ (s.loseLine).responder = s.responder ∧
    (s.loseLine).notices = s.notices ∧ (s.loseLine).freeCount = s.freeCount := by
  simp [State.loseLine]

@[simp] theorem State.loseStation_keeps (s : State) :
    (s.loseStation).pending = s.pending ∧ (s.loseStation).unitStraps = s.unitStraps ∧ (s.loseStation).time = s.time ∧
    (s.loseStation).ctx = s.ctx ∧ (s.loseStation).rules = s.rules ∧ (s.loseStation).releaseTimer = s.releaseTimer ∧
    (s.loseStation).wake = s.wake ∧ (s.loseStation).answers = s.answers ∧ (s.loseStation).responder = s.responder ∧
    (s.loseStation).notices = s.notices ∧ (s.loseStation).freeCount = s.freeCount := by
  simp [State.loseStation]

@[simp] theorem State.lineLinkEvent_keeps (s : State) (up : Bool) :
    (s.lineLinkEvent up).pending = s.pending ∧ (s.lineLinkEvent up).pins = s.pins ∧
    (s.lineLinkEvent up).unitStraps = s.unitStraps ∧ (s.lineLinkEvent up).time = s.time ∧
    (s.lineLinkEvent up).rules = s.rules ∧ (s.lineLinkEvent up).hold = s.hold ∧
    (s.lineLinkEvent up).releaseTimer = s.releaseTimer ∧ (s.lineLinkEvent up).answers = s.answers ∧
    (s.lineLinkEvent up).line = s.line ∧ (s.lineLinkEvent up).station = s.station ∧
    (s.lineLinkEvent up).transit = s.transit ∧ (s.lineLinkEvent up).responder = s.responder ∧
    (s.lineLinkEvent up).freeCount = s.freeCount := by
  unfold State.lineLinkEvent; dsimp only; split <;> (try split) <;> simp

@[simp] theorem State.sleepAtLoss_keeps (s : State) :
    (s.sleepAtLoss).pending = s.pending ∧ (s.sleepAtLoss).pins = s.pins ∧ (s.sleepAtLoss).unitStraps = s.unitStraps ∧
    (s.sleepAtLoss).time = s.time ∧ (s.sleepAtLoss).rules = s.rules ∧ (s.sleepAtLoss).hold = s.hold ∧
    (s.sleepAtLoss).answers = s.answers ∧ (s.sleepAtLoss).line = s.line ∧ (s.sleepAtLoss).station = s.station ∧
    (s.sleepAtLoss).transit = s.transit ∧ (s.sleepAtLoss).responder = s.responder ∧
    (s.sleepAtLoss).freeCount = s.freeCount := by
  unfold State.sleepAtLoss; split <;> (try split) <;> simp

@[simp] theorem State.endAttempt_keeps (s : State) :
    (s.endAttempt).pending = s.pending ∧ (s.endAttempt).pins = s.pins ∧ (s.endAttempt).unitStraps = s.unitStraps ∧
    (s.endAttempt).time = s.time ∧ (s.endAttempt).rules = s.rules ∧ (s.endAttempt).hold = s.hold ∧
    (s.endAttempt).releaseTimer = s.releaseTimer ∧ (s.endAttempt).answers = s.answers ∧ (s.endAttempt).line = s.line ∧
    (s.endAttempt).station = s.station ∧ (s.endAttempt).transit = s.transit ∧ (s.endAttempt).responder = s.responder ∧
    (s.endAttempt).freeCount = s.freeCount := by
  unfold State.endAttempt; dsimp only; split <;> simp

@[simp] theorem State.leaveLine_keeps (s : State) (x : LineSource) :
    (s.leaveLine x).pending = s.pending ∧ (s.leaveLine x).pins = s.pins ∧ (s.leaveLine x).unitStraps = s.unitStraps ∧
    (s.leaveLine x).time = s.time ∧ (s.leaveLine x).ctx = s.ctx ∧ (s.leaveLine x).rules = s.rules ∧
    (s.leaveLine x).hold = s.hold ∧ (s.leaveLine x).releaseTimer = s.releaseTimer ∧ (s.leaveLine x).wake = s.wake ∧
    (s.leaveLine x).station = s.station ∧ (s.leaveLine x).responder = s.responder ∧
    (s.leaveLine x).notices = s.notices ∧ (s.leaveLine x).freeCount = s.freeCount := by
  cases x <;> simp [State.leaveLine]

@[simp] theorem State.leaveStation_keeps (s : State) (x : StationSource) :
    (s.leaveStation x).pending = s.pending ∧ (s.leaveStation x).pins = s.pins ∧
    (s.leaveStation x).unitStraps = s.unitStraps ∧ (s.leaveStation x).time = s.time ∧ (s.leaveStation x).ctx = s.ctx ∧
    (s.leaveStation x).rules = s.rules ∧ (s.leaveStation x).releaseTimer = s.releaseTimer ∧
    (s.leaveStation x).wake = s.wake ∧ (s.leaveStation x).answers = s.answers ∧ (s.leaveStation x).line = s.line ∧
    (s.leaveStation x).responder = s.responder ∧ (s.leaveStation x).notices = s.notices ∧
    (s.leaveStation x).freeCount = s.freeCount := by
  cases x <;> simp [State.leaveStation]

@[simp] theorem State.dozeMove_keeps (s : State) :
    (s.dozeMove).pending = s.pending ∧ (s.dozeMove).pins = s.pins ∧ (s.dozeMove).unitStraps = s.unitStraps ∧
    (s.dozeMove).time = s.time ∧ (s.dozeMove).rules = s.rules ∧ (s.dozeMove).hold = s.hold ∧
    (s.dozeMove).answers = s.answers ∧ (s.dozeMove).line = s.line ∧ (s.dozeMove).station = s.station ∧
    (s.dozeMove).transit = s.transit ∧ (s.dozeMove).responder = s.responder ∧
    (s.dozeMove).freeCount = s.freeCount := by
  unfold State.dozeMove; split <;> (try split) <;> simp

@[simp] theorem State.endSleep_keeps (s : State) :
    (s.endSleep).pending = s.pending ∧ (s.endSleep).pins = s.pins ∧ (s.endSleep).unitStraps = s.unitStraps ∧
    (s.endSleep).time = s.time ∧ (s.endSleep).rules = s.rules ∧ (s.endSleep).hold = s.hold ∧
    (s.endSleep).answers = s.answers ∧ (s.endSleep).line = s.line ∧ (s.endSleep).station = s.station ∧
    (s.endSleep).transit = s.transit ∧ (s.endSleep).responder = s.responder ∧
    (s.endSleep).freeCount = s.freeCount := by
  unfold State.endSleep; dsimp only; split <;> simp

@[simp] theorem Own.ok_parts (s : State) (b : List Byte) :
    (Own.ok s b).state = s ∧ (Own.ok s b).status = .ok ∧ (Own.ok s b).body = b := ⟨rfl, rfl, rfl⟩

@[simp] theorem Own.refuse_parts (s : State) (x : Status) :
    (Own.refuse s x).state = s ∧ (Own.refuse s x).status = x ∧ (Own.refuse s x).body = [] := ⟨rfl, rfl, rfl⟩

@[simp] theorem State.setProfile_keeps (s : State) (i : Nat) (p : Option Profile) :
    (s.setProfile i p).pending = s.pending ∧ (s.setProfile i p).pins = s.pins ∧
    (s.setProfile i p).unitStraps = s.unitStraps ∧ (s.setProfile i p).time = s.time ∧
    (s.setProfile i p).freeCount = s.freeCount := by
  simp [State.setProfile]

@[simp] theorem State.setTemplate_keeps (s : State) (i : Nat) (t : Option Template) :
    (s.setTemplate i t).pending = s.pending ∧ (s.setTemplate i t).pins = s.pins ∧
    (s.setTemplate i t).unitStraps = s.unitStraps ∧ (s.setTemplate i t).time = s.time ∧
    (s.setTemplate i t).freeCount = s.freeCount := by
  simp [State.setTemplate]

@[simp] theorem State.stage_keeps (s : State) (i : Byte) (e : StagedEntry) :
    ((s.stage i e).state).pending = s.pending ∧ ((s.stage i e).state).pins = s.pins ∧
    ((s.stage i e).state).unitStraps = s.unitStraps ∧ ((s.stage i e).state).time = s.time ∧
    ((s.stage i e).state).freeCount = s.freeCount := by
  simp [State.stage]

@[simp] theorem State.purge_keeps (s : State) (p : Descriptor → Bool) :
    ((s.purge p).state).pending = s.pending ∧ ((s.purge p).state).pins = s.pins ∧
    ((s.purge p).state).unitStraps = s.unitStraps ∧ ((s.purge p).state).time = s.time ∧
    ((s.purge p).state).freeCount = s.freeCount := by
  simp [State.purge]

@[simp] theorem State.undefineProfile_keeps (s : State) (i : Nat) :
    ((s.undefineProfile i).state).pending = s.pending ∧ ((s.undefineProfile i).state).pins = s.pins ∧
    ((s.undefineProfile i).state).unitStraps = s.unitStraps ∧ ((s.undefineProfile i).state).time = s.time ∧
    ((s.undefineProfile i).state).freeCount = s.freeCount := by
  unfold State.undefineProfile; split <;> (try split) <;> simp

@[simp] theorem State.clearPorts_keeps (s : State) :
    (s.clearPorts).pending = s.pending ∧ (s.clearPorts).pins = s.pins ∧ (s.clearPorts).unitStraps = s.unitStraps ∧
    (s.clearPorts).time = s.time ∧ (s.clearPorts).freeCount = s.freeCount := by
  simp [State.clearPorts]

@[simp] theorem State.clearRules_keeps (s : State) :
    (s.clearRules).pending = s.pending ∧ (s.clearRules).pins = s.pins ∧ (s.clearRules).unitStraps = s.unitStraps ∧
    (s.clearRules).time = s.time ∧ (s.clearRules).freeCount = s.freeCount := by
  simp [State.clearRules]

@[simp] theorem State.clearAnswers_keeps (s : State) :
    (s.clearAnswers).pending = s.pending ∧ (s.clearAnswers).pins = s.pins ∧
    (s.clearAnswers).unitStraps = s.unitStraps ∧ (s.clearAnswers).time = s.time ∧
    (s.clearAnswers).freeCount = s.freeCount := by
  simp [State.clearAnswers]

@[simp] theorem ownRuleStage_keeps (ps : List Byte) (s : State) :
    ((ownRuleStage ps s).state).pending = s.pending ∧ ((ownRuleStage ps s).state).pins = s.pins ∧
    ((ownRuleStage ps s).state).unitStraps = s.unitStraps ∧ ((ownRuleStage ps s).state).time = s.time ∧
    ((ownRuleStage ps s).state).freeCount = s.freeCount := by
  unfold ownRuleStage; (try dsimp only); repeat' split
  all_goals simp

@[simp] theorem ownProfileWrite_keeps (ps : List Byte) (s : State) :
    ((ownProfileWrite ps s).state).pending = s.pending ∧ ((ownProfileWrite ps s).state).pins = s.pins ∧
    ((ownProfileWrite ps s).state).unitStraps = s.unitStraps ∧ ((ownProfileWrite ps s).state).time = s.time ∧
    ((ownProfileWrite ps s).state).freeCount = s.freeCount := by
  unfold ownProfileWrite; (try dsimp only); repeat' split
  all_goals simp

@[simp] theorem ownTemplateWrite_keeps (ps : List Byte) (s : State) :
    ((ownTemplateWrite ps s).state).pending = s.pending ∧ ((ownTemplateWrite ps s).state).pins = s.pins ∧
    ((ownTemplateWrite ps s).state).unitStraps = s.unitStraps ∧ ((ownTemplateWrite ps s).state).time = s.time ∧
    ((ownTemplateWrite ps s).state).freeCount = s.freeCount := by
  unfold ownTemplateWrite; (try dsimp only); repeat' split
  all_goals simp

@[simp] theorem ownClassWrite_keeps (ps : List Byte) (s : State) :
    ((ownClassWrite ps s).state).pending = s.pending ∧ ((ownClassWrite ps s).state).pins = s.pins ∧
    ((ownClassWrite ps s).state).unitStraps = s.unitStraps ∧ ((ownClassWrite ps s).state).time = s.time ∧
    ((ownClassWrite ps s).state).freeCount = s.freeCount := by
  unfold ownClassWrite; (try dsimp only); repeat' split
  all_goals simp

@[simp] theorem ownHoldPurge_keeps (ps : List Byte) (s : State) :
    ((ownHoldPurge ps s).state).pending = s.pending ∧ ((ownHoldPurge ps s).state).pins = s.pins ∧
    ((ownHoldPurge ps s).state).unitStraps = s.unitStraps ∧ ((ownHoldPurge ps s).state).time = s.time ∧
    ((ownHoldPurge ps s).state).freeCount = s.freeCount := by
  unfold ownHoldPurge; (try dsimp only); repeat' split
  all_goals simp

@[simp] theorem ownNoticeAck_keeps (ps : List Byte) (s : State) :
    ((ownNoticeAck ps s).state).pending = s.pending ∧ ((ownNoticeAck ps s).state).pins = s.pins ∧
    ((ownNoticeAck ps s).state).unitStraps = s.unitStraps ∧ ((ownNoticeAck ps s).state).time = s.time ∧
    ((ownNoticeAck ps s).state).freeCount = s.freeCount := by
  unfold ownNoticeAck; (try dsimp only); repeat' split
  all_goals simp

@[simp] theorem ownNoticeMask_keeps (ps : List Byte) (s : State) :
    ((ownNoticeMask ps s).state).pending = s.pending ∧ ((ownNoticeMask ps s).state).pins = s.pins ∧
    ((ownNoticeMask ps s).state).unitStraps = s.unitStraps ∧ ((ownNoticeMask ps s).state).time = s.time ∧
    ((ownNoticeMask ps s).state).freeCount = s.freeCount := by
  unfold ownNoticeMask; (try dsimp only); repeat' split
  all_goals simp

@[simp] theorem ownCountersRead_keeps (ps : List Byte) (s : State) :
    ((ownCountersRead ps s).state).pending = s.pending ∧ ((ownCountersRead ps s).state).pins = s.pins ∧
    ((ownCountersRead ps s).state).unitStraps = s.unitStraps ∧ ((ownCountersRead ps s).state).time = s.time ∧
    ((ownCountersRead ps s).state).freeCount = s.freeCount := by
  unfold ownCountersRead; (try dsimp only); repeat' split
  all_goals simp

@[simp] theorem ownReset_keeps (ps : List Byte) (s : State) :
    ((ownReset ps s).state).pending = s.pending ∧ ((ownReset ps s).state).pins = s.pins ∧
    ((ownReset ps s).state).unitStraps = s.unitStraps ∧ ((ownReset ps s).state).time = s.time ∧
    ((ownReset ps s).state).freeCount = s.freeCount := by
  unfold ownReset; (try dsimp only); repeat' split
  all_goals simp

@[simp] theorem ownRuleDiscard_keeps (s : State) :
    ((ownRuleDiscard s).state).pending = s.pending ∧ ((ownRuleDiscard s).state).pins = s.pins ∧
    ((ownRuleDiscard s).state).unitStraps = s.unitStraps ∧ ((ownRuleDiscard s).state).time = s.time ∧
    ((ownRuleDiscard s).state).freeCount = s.freeCount := by
  simp [ownRuleDiscard]

@[simp] theorem ownRuleCommit_keeps (s : State) :
    ((ownRuleCommit s).state).pending = s.pending ∧ ((ownRuleCommit s).state).pins = s.pins ∧
    ((ownRuleCommit s).state).unitStraps = s.unitStraps ∧ ((ownRuleCommit s).state).time = s.time ∧
    ((ownRuleCommit s).state).freeCount = s.freeCount := by
  simp [ownRuleCommit]

@[simp] theorem ownWake_keeps (s : State) :
    ((ownWake s).state).pending = s.pending ∧ ((ownWake s).state).pins = s.pins ∧
    ((ownWake s).state).unitStraps = s.unitStraps ∧ ((ownWake s).state).time = s.time ∧
    ((ownWake s).state).freeCount = s.freeCount := by
  unfold ownWake; (try dsimp only); repeat' split
  all_goals simp

@[simp] theorem ownResume_keeps (s : State) :
    ((ownResume s).state).pending = s.pending ∧ ((ownResume s).state).pins = s.pins ∧
    ((ownResume s).state).unitStraps = s.unitStraps ∧ ((ownResume s).state).time = s.time ∧
    ((ownResume s).state).freeCount = s.freeCount := by
  unfold ownResume; (try dsimp only); repeat' split
  all_goals simp

@[simp] theorem ownDoze_keeps (a : Mac) (ps : List Byte) (s : State) :
    ((ownDoze a ps s).state).pending = s.pending ∧ ((ownDoze a ps s).state).pins = s.pins ∧
    ((ownDoze a ps s).state).unitStraps = s.unitStraps ∧ ((ownDoze a ps s).state).time = s.time ∧
    ((ownDoze a ps s).state).freeCount = s.freeCount := by
  unfold ownDoze; (try dsimp only); repeat' split
  all_goals simp

@[simp] theorem ownIdentify_state (s : State) : (ownIdentify s).state = s := by
  simp [ownIdentify]

@[simp] theorem ownStatus_state (s : State) : (ownStatus s).state = s := by
  simp [ownStatus]

@[simp] theorem ownRuleRead_state (ps : List Byte) (s : State) : (ownRuleRead ps s).state = s := by
  unfold ownRuleRead; (try dsimp only); repeat' split
  all_goals simp

@[simp] theorem ownProfileRead_state (ps : List Byte) (s : State) : (ownProfileRead ps s).state = s := by
  unfold ownProfileRead; (try dsimp only); repeat' split
  all_goals simp

@[simp] theorem ownTemplateRead_state (ps : List Byte) (s : State) : (ownTemplateRead ps s).state = s := by
  unfold ownTemplateRead; (try dsimp only); repeat' split
  all_goals simp

@[simp] theorem ownClassRead_state (ps : List Byte) (s : State) : (ownClassRead ps s).state = s := by
  unfold ownClassRead; (try dsimp only); repeat' split
  all_goals simp

@[simp] theorem ownHoldList_state (ps : List Byte) (s : State) : (ownHoldList ps s).state = s := by
  unfold ownHoldList; (try dsimp only); repeat' split
  all_goals simp

@[simp] theorem ownStationQuery_state (s : State) : (ownStationQuery s).state = s := by
  simp [ownStationQuery]

@[simp] theorem Cmd.own_keeps (k : Cmd) (c : Ctl) (s : State) :
    ((k.own c s).state).pending = s.pending ∧ ((k.own c s).state).pins = s.pins ∧
    ((k.own c s).state).unitStraps = s.unitStraps ∧ ((k.own c s).state).time = s.time ∧
    ((k.own c s).state).freeCount = s.freeCount := by
  cases k <;> simp [Cmd.own]

@[simp] theorem State.execute_keeps (s : State) (k : Cmd) (c : Ctl) (b : Binding) :
    (s.execute k c b).pending = s.pending ∧ (s.execute k c b).pins = s.pins ∧
    (s.execute k c b).unitStraps = s.unitStraps ∧ (s.execute k c b).time = s.time ∧
    (s.execute k c b).freeCount = s.freeCount := by
  unfold State.execute; dsimp only; split <;> simp

@[simp] theorem State.replay_keeps (s : State) (c : Ctl) (b : Binding) :
    (s.replay c b).pending = s.pending ∧ (s.replay c b).pins = s.pins ∧ (s.replay c b).unitStraps = s.unitStraps ∧
    (s.replay c b).time = s.time ∧ (s.replay c b).freeCount = s.freeCount := by
  simp [State.replay]

@[simp] theorem State.judgeBind_keeps (s : State) (c : Ctl) :
    (s.judgeBind c).pending = s.pending ∧ (s.judgeBind c).pins = s.pins ∧ (s.judgeBind c).unitStraps = s.unitStraps ∧
    (s.judgeBind c).time = s.time ∧ (s.judgeBind c).freeCount = s.freeCount := by
  unfold State.judgeBind; dsimp only; repeat' split
  all_goals simp

@[simp] theorem State.judgeBound_keeps (s : State) (k : Cmd) (c : Ctl) :
    (s.judgeBound k c).pending = s.pending ∧ (s.judgeBound k c).pins = s.pins ∧
    (s.judgeBound k c).unitStraps = s.unitStraps ∧ (s.judgeBound k c).time = s.time ∧
    (s.judgeBound k c).freeCount = s.freeCount := by
  unfold State.judgeBound; repeat' split
  all_goals simp

@[simp] theorem State.judgeFree_keeps (s : State) (k : Cmd) (c : Ctl) :
    (s.judgeFree k c).pending = s.pending ∧ (s.judgeFree k c).pins = s.pins ∧
    (s.judgeFree k c).unitStraps = s.unitStraps ∧ (s.judgeFree k c).time = s.time ∧
    (s.judgeFree k c).freeCount = s.freeCount := by
  simp [State.judgeFree]

@[simp] theorem State.judgeCommand_keeps (s : State) (k : Cmd) (c : Ctl) :
    (s.judgeCommand k c).pending = s.pending ∧ (s.judgeCommand k c).pins = s.pins ∧
    (s.judgeCommand k c).unitStraps = s.unitStraps ∧ (s.judgeCommand k c).time = s.time ∧
    (s.judgeCommand k c).freeCount = s.freeCount := by
  unfold State.judgeCommand; repeat' split
  all_goals simp

@[simp] theorem State.judge_keeps (s : State) (c : Ctl) :
    (s.judge c).pending = s.pending ∧ (s.judge c).pins = s.pins ∧ (s.judge c).unitStraps = s.unitStraps ∧
    (s.judge c).time = s.time ∧ (s.judge c).freeCount = s.freeCount := by
  unfold State.judge; repeat' split
  all_goals simp

@[simp] theorem State.respond_keeps (s : State) (c : Ctl) :
    (s.respond c).pending = s.pending ∧ (s.respond c).pins = s.pins ∧ (s.respond c).unitStraps = s.unitStraps ∧
    (s.respond c).time = s.time ∧ (s.respond c).freeCount = s.freeCount := by
  unfold State.respond; repeat' split
  all_goals simp

@[simp] theorem State.consume_keeps (s : State) (c : Ctl) :
    (s.consume c).pending = s.pending ∧ (s.consume c).pins = s.pins ∧ (s.consume c).unitStraps = s.unitStraps ∧
    (s.consume c).time = s.time ∧ (s.consume c).freeCount = s.freeCount := by
  simp [State.consume]

@[simp] theorem State.traffic_keeps (s : State) (p : Port) (f : Frame) :
    (s.traffic p f).pending = s.pending ∧ (s.traffic p f).pins = s.pins ∧ (s.traffic p f).unitStraps = s.unitStraps ∧
    (s.traffic p f).time = s.time ∧ (s.traffic p f).freeCount = s.freeCount := by
  cases p <;> simp [State.traffic]

@[simp] theorem State.intake_keeps (s : State) (p : Port) (f : Frame) :
    (s.intake p f).pending = s.pending ∧ (s.intake p f).pins = s.pins ∧ (s.intake p f).unitStraps = s.unitStraps ∧
    (s.intake p f).time = s.time ∧ (s.intake p f).freeCount = s.freeCount := by
  unfold State.intake; dsimp only; repeat' split
  all_goals simp

@[simp] theorem State.receive_keeps (s : State) (p : Port) (f : Frame) :
    (s.receive p f).pending = s.pending ∧ (s.receive p f).pins = s.pins ∧ (s.receive p f).unitStraps = s.unitStraps ∧
    (s.receive p f).time = s.time ∧ (s.receive p f).freeCount = s.freeCount := by
  unfold State.receive; split <;> simp

@[simp] theorem State.command_keeps (s : State) (h : CmdHeader) (k : Cmd) (ps : List Byte) :
    (s.command h k ps).pending = s.pending ∧ (s.command h k ps).pins = s.pins ∧
    (s.command h k ps).unitStraps = s.unitStraps ∧ (s.command h k ps).time = s.time ∧
    (s.command h k ps).freeCount = s.freeCount := by
  unfold State.command; dsimp only; repeat' split
  all_goals simp

end Sys2Proof.Machine
end

