-- ==== Sys2Proof/Laws/Settle.lean ====
section
/-! SUPPORT. What the part's own steps leave: after `settle` none of them is due, and where none was due `settle`
changes nothing. -/

namespace Sys2Proof.Machine

/-! ## Finer frames -/

@[simp] theorem State.sendNotice_station (s : State) (f : CtlFrame) : (s.sendNotice f).station = s.station := by
  unfold State.sendNotice; split <;> simp [State.countLinkDown, State.mapCounters]

@[simp] theorem State.noticeOffer_station (s : State) : s.noticeOffer.station = s.station := by
  unfold State.noticeOffer; split <;> simp

@[simp] theorem State.settleOffer_station (s : State) : s.settleOffer.station = s.station := by
  simp only [State.settleOffer, State.when]; split <;> simp

@[simp] theorem State.sendNotice_linkUp (s : State) (f : CtlFrame) :
    (s.sendNotice f).line.linkUp = s.line.linkUp ∧ (s.sendNotice f).line.tx = s.line.tx := by
  unfold State.sendNotice; split <;> simp [State.countLinkDown, State.mapCounters]

/-- The frame a line transmission sends depends on the port, the answers and the transit queue alone. -/
theorem State.lineTxFrame_congr {s t : State} (h1 : t.line.tx = s.line.tx) (h2 : t.line.control = s.line.control)
    (h3 : t.answers.queue = s.answers.queue) (h4 : t.transit.toLine = s.transit.toLine) :
    t.lineTxFrame = s.lineTxFrame := by
  simp [State.lineTxFrame, h1, h2, h3, h4]

/-- The frame a station transmission sends depends on the port, the hold list and the transit queue alone. -/
theorem State.stationTxFrame_congr {s t : State} (h1 : t.station.tx = s.station.tx)
    (h2 : t.station.control = s.station.control) (h3 : t.hold.list = s.hold.list)
    (h4 : t.transit.toStation = s.transit.toStation) : t.stationTxFrame = s.stationTxFrame := by
  simp [State.stationTxFrame, State.delivering, h1, h2, h3, h4]

/-- What the counting of a release cut leaves of the station port. -/
theorem State.countReleaseCut_station (s : State) :
    s.countReleaseCut.station =
      { s.station with
        releaseCut := if s.station.tx = some .release then s.station.releaseCut + 1 else s.station.releaseCut } := by
  unfold State.countReleaseCut; split <;> simp

/-! ## Each step where it is not due, and where it is -/

theorem State.when_false {s : State} {b : Bool} (f : State → State) (h : b = false) : s.when b f = s := by
  simp [State.when, h]

theorem State.when_true {s : State} {b : Bool} (f : State → State) (h : b = true) : s.when b f = f s := by
  simp [State.when, h]

theorem State.settleReset_of_not {s : State} (h : s.resetDue = false) : s.settleReset = s := State.when_false _ h
theorem State.settleReleaseEnd_of_not {s : State} (h : s.releaseEndDue = false) : s.settleReleaseEnd = s :=
  State.when_false _ h
theorem State.settleDrainEnd_of_not {s : State} (h : s.drainEndDue = false) : s.settleDrainEnd = s :=
  State.when_false _ h
theorem State.settleDelivery_of_not {s : State} (h : s.deliveryDue = false) : s.settleDelivery = s :=
  State.when_false _ h
theorem State.settleLine_of_not {s : State} (h : s.lineChoiceDue = false) : s.settleLine = s := State.when_false _ h
theorem State.settleStation_of_not {s : State} (h : s.stationChoiceDue = false) : s.settleStation = s :=
  State.when_false _ h
theorem State.settleOffer_of_not {s : State} (h : s.offerDue = false) : s.settleOffer = s := State.when_false _ h

theorem State.settleReset_of_due {s : State} (h : s.resetDue = true) : s.settleReset = s.takeReset :=
  State.when_true _ h
theorem State.settleReleaseEnd_of_due {s : State} (h : s.releaseEndDue = true) : s.settleReleaseEnd = s.releaseEnd :=
  State.when_true _ h
theorem State.settleDrainEnd_of_due {s : State} (h : s.drainEndDue = true) : s.settleDrainEnd = s.drainEnd :=
  State.when_true _ h
theorem State.settleDelivery_of_due {s : State} (h : s.deliveryDue = true) : s.settleDelivery = s.beginDelivery :=
  State.when_true _ h
theorem State.settleLine_of_due {s : State} (h : s.lineChoiceDue = true) : s.settleLine = s.lineChoice :=
  State.when_true _ h
theorem State.settleStation_of_due {s : State} (h : s.stationChoiceDue = true) : s.settleStation = s.stationChoice :=
  State.when_true _ h
theorem State.settleOffer_of_due {s : State} (h : s.offerDue = true) : s.settleOffer = s.noticeOffer :=
  State.when_true _ h

/-- `nothingDue`, taken apart. -/
theorem State.nothingDue_iff (s : State) :
    s.nothingDue = true ↔ s.resetDue = false ∧ s.releaseEndDue = false ∧ s.drainEndDue = false ∧
      s.deliveryDue = false ∧ s.lineChoiceDue = false ∧ s.stationChoiceDue = false ∧ s.offerDue = false := by
  simp [State.nothingDue, and_assoc]

/-- Where nothing is due, settling changes nothing. -/
theorem State.settle_of_nothingDue {s : State} (h : s.nothingDue = true) : s.settle = s := by
  obtain ⟨h1, h2, h3, h4, h5, h6, h7⟩ := (State.nothingDue_iff s).1 h
  rw [State.settle, State.settleReset_of_not h1, State.settleReleaseEnd_of_not h2, State.settleDrainEnd_of_not h3,
    State.settleDelivery_of_not h4, State.settleLine_of_not h5, State.settleStation_of_not h6,
    State.settleOffer_of_not h7, State.settleLine_of_not h5]

/-- What the conditions of the part's own steps look at. -/
theorem State.nothingDue_congr {s t : State} (h1 : t.ctx.station = s.ctx.station) (h2 : t.hold.list = s.hold.list)
    (h3 : t.transit = s.transit) (h4 : (t.releaseTimer == .expired) = (s.releaseTimer == .expired))
    (h5 : t.responder.resetPending = s.responder.resetPending)
    (h6 : t.responder.binding.isSome = s.responder.binding.isSome) (h7 : t.line.control = s.line.control)
    (h8 : t.line.tx = s.line.tx) (h9 : t.line.linkUp = s.line.linkUp) (h10 : t.station.control = s.station.control)
    (h11 : t.station.tx = s.station.tx) (h12 : t.station.linkUp = s.station.linkUp)
    (h13 : t.answers.queue = s.answers.queue) (h14 : t.notices.queue = s.notices.queue)
    (h15 : (t.notices.timer == .stopped) = (s.notices.timer == .stopped)) : t.nothingDue = s.nothingDue := by
  simp only [State.nothingDue, State.resetDue, State.releaseEndDue, State.drainEndDue, State.deliveryDue,
    State.lineChoiceDue, State.stationChoiceDue, State.offerDue, State.drained, State.delivering, h1, h2, h3, h4, h5,
    h6, h7, h8, h9, h10, h11, h12, h13, h14, h15]

/-- Settling where only the line's choice, the offer and the end of a release may be due: the form that the
management commands meet. -/
theorem State.settle_of_idle {s : State} (h1 : s.resetDue = false) (h3 : s.settleReleaseEnd.drainEndDue = false)
    (h4 : s.settleReleaseEnd.deliveryDue = false) (h6 : s.settleReleaseEnd.settleLine.stationChoiceDue = false) :
    s.settle = s.settleReleaseEnd.settleLine.settleOffer.settleLine := by
  rw [State.settle, State.settleReset_of_not h1, State.settleDrainEnd_of_not h3, State.settleDelivery_of_not h4,
    State.settleStation_of_not h6]

/-- Where only the offer of a notice can be due, settling is that offer and the line arbiter's choice after it. -/
theorem State.settle_of_offer {s : State} (h1 : s.resetDue = false) (h2 : s.releaseEndDue = false)
    (h3 : s.drainEndDue = false) (h4 : s.deliveryDue = false) (h5 : s.lineChoiceDue = false)
    (h6 : s.stationChoiceDue = false) : s.settle = s.settleOffer.settleLine := by
  rw [State.settle, State.settleReset_of_not h1, State.settleReleaseEnd_of_not h2, State.settleDrainEnd_of_not h3,
    State.settleDelivery_of_not h4, State.settleLine_of_not h5, State.settleStation_of_not h6]

/-! ## What each step does to the conditions of the others -/

@[simp] theorem State.takeReset_resetPending (s : State) : s.takeReset.responder.resetPending = none := by
  unfold State.takeReset
  split
  · assumption
  · unfold State.warmReset; split <;> simp [State.warmClear]
  · rfl

theorem State.settleReset_resetDue (s : State) : s.settleReset.resetDue = false := by
  simp only [State.settleReset, State.when]
  split
  · simp [State.resetDue]
  · next h => simpa using h

@[simp] theorem State.releaseEnd_station (s : State) : s.releaseEnd.ctx.station = .awake := by
  simp [State.releaseEnd, State.changeState]

theorem State.settleReleaseEnd_due (s : State) :
    s.settleReleaseEnd.releaseEndDue = false ∧ s.settleReleaseEnd.resetDue = s.resetDue := by
  constructor
  · simp only [State.settleReleaseEnd, State.when]
    split
    · simp [State.releaseEndDue]
    · next h => simpa using h
  · simp [State.resetDue]

@[simp] theorem State.changeState_station (s : State) (e : StationState) (c : Cause) :
    (s.changeState e c).ctx.station = e := by
  simp [State.changeState]

@[simp] theorem State.enterWaking_station (s : State) (c : Cause) : (s.enterWaking c).ctx.station = .waking := by
  simp [State.enterWaking]

theorem State.drainEnd_station (s : State) :
    s.drainEnd.ctx.station = if s.ctx.wakePending then .waking else .asleep := by
  unfold State.drainEnd; split <;> simp

theorem State.settleDrainEnd_due (s : State) :
    s.settleDrainEnd.drainEndDue = false ∧ s.settleDrainEnd.releaseEndDue = s.releaseEndDue ∧
      s.settleDrainEnd.resetDue = s.resetDue := by
  refine ⟨?_, ?_, by simp [State.resetDue]⟩
  all_goals
    simp only [State.settleDrainEnd, State.when]
    split
    · next h =>
      simp only [State.drainEndDue, Bool.and_eq_true, beq_iff_eq] at h
      simp only [State.drainEndDue, State.releaseEndDue, State.drainEnd_station, h.1]
      split <;> rfl
    · next h => first | rfl | simpa using h

theorem HoldStore.beginDelivery_isEmpty (h : HoldStore) : h.beginDelivery.list.isEmpty = h.list.isEmpty := by
  unfold HoldStore.beginDelivery; split <;> simp_all

theorem State.settleDelivery_due (s : State) :
    s.settleDelivery.deliveryDue = false ∧ s.settleDelivery.drainEndDue = s.drainEndDue ∧
      s.settleDelivery.releaseEndDue = s.releaseEndDue ∧ s.settleDelivery.resetDue = s.resetDue := by
  refine ⟨?_, ?_, ?_, by simp [State.resetDue]⟩
  · simp only [State.settleDelivery, State.when]
    split
    · next h =>
      simp only [State.deliveryDue, Bool.and_eq_true, Bool.not_eq_true', beq_iff_eq] at h
      cases hl : s.hold.list with
      | nil => simp [hl] at h
      | cons d rest =>
        simp [State.deliveryDue, State.beginDelivery, HoldStore.beginDelivery, hl, State.delivering,
          Descriptor.isDelivering]
    · next h => simpa using h
  · simp only [State.settleDelivery, State.when]
    split
    · next h =>
      simp only [State.deliveryDue, Bool.and_eq_true, beq_iff_eq] at h
      simp only [State.drainEndDue, State.beginDelivery_keeps, h.1.1.1.1]
      rfl
    · rfl
  · simp only [State.settleDelivery, State.when]
    split
    · simp [State.releaseEndDue, State.beginDelivery, HoldStore.beginDelivery_isEmpty]
    · rfl

theorem State.settleLine_due (s : State) :
    s.settleLine.lineChoiceDue = false ∧ s.settleLine.stationChoiceDue = s.stationChoiceDue ∧
      s.settleLine.offerDue = s.offerDue ∧ s.settleLine.deliveryDue = s.deliveryDue ∧
      s.settleLine.drainEndDue = s.drainEndDue ∧ s.settleLine.releaseEndDue = s.releaseEndDue ∧
      s.settleLine.resetDue = s.resetDue := by
  simp only [State.settleLine, State.when]
  split
  · simp [State.lineChoiceDue, State.lineChoice, State.stationChoiceDue, State.offerDue, State.deliveryDue,
      State.drainEndDue, State.releaseEndDue, State.resetDue, State.delivering, State.drained]
  · next h => simpa using h

theorem State.settleStation_due (s : State) :
    s.settleStation.stationChoiceDue = false ∧ s.settleStation.lineChoiceDue = s.lineChoiceDue ∧
      s.settleStation.offerDue = s.offerDue ∧ s.settleStation.deliveryDue = s.deliveryDue ∧
      s.settleStation.drainEndDue = s.drainEndDue ∧ s.settleStation.releaseEndDue = s.releaseEndDue ∧
      s.settleStation.resetDue = s.resetDue := by
  simp only [State.settleStation, State.when]
  split
  · simp [State.lineChoiceDue, State.stationChoice, State.stationChoiceDue, State.offerDue, State.deliveryDue,
      State.drainEndDue, State.releaseEndDue, State.resetDue, State.delivering, State.drained]
  · next h => simpa using h

theorem State.noticeFrame_isResetResponse (s : State) (m : Mac) (n : Notice) :
    (s.noticeFrame m n).isResetResponse = false := by
  simp [State.noticeFrame, CtlFrame.isResetResponse]

theorem State.noticeOffer_timer {s : State} (h : s.offerDue = true) :
    s.noticeOffer.notices.timer = .running 2000 := by
  unfold State.offerDue at h
  unfold State.noticeOffer
  split
  · simp [Config.retransmitMs]
  · next h' =>
    cases hq : s.notices.queue <;> cases hb : s.responder.binding <;> simp_all

theorem State.noticeOffer_resetResponses (s : State) :
    s.noticeOffer.line.control.any CtlFrame.isResetResponse = s.line.control.any CtlFrame.isResetResponse := by
  unfold State.noticeOffer
  split
  · unfold State.sendNotice
    split <;> simp [State.countLinkDown, State.mapCounters, State.noticeFrame_isResetResponse]
  · rfl

theorem State.settleOffer_due (s : State) :
    s.settleOffer.offerDue = false ∧ s.settleOffer.stationChoiceDue = s.stationChoiceDue ∧
      s.settleOffer.deliveryDue = s.deliveryDue ∧ s.settleOffer.drainEndDue = s.drainEndDue ∧
      s.settleOffer.releaseEndDue = s.releaseEndDue ∧ s.settleOffer.resetDue = s.resetDue := by
  simp only [State.settleOffer, State.when]
  split
  · next h =>
    refine ⟨?_, ?_, ?_, ?_, ?_, ?_⟩
    · simp [State.offerDue, State.noticeOffer_timer h]
    all_goals simp [State.stationChoiceDue, State.deliveryDue, State.drainEndDue, State.releaseEndDue,
      State.resetDue, State.delivering, State.drained, State.noticeOffer_resetResponses]
  · next h => simpa using h

/-- After `settle` none of the part's own steps is due, in every state. -/
theorem State.settle_nothingDue (s : State) : s.settle.nothingDue = true := by
  rw [State.nothingDue_iff]
  have a := State.settleReset_resetDue s
  have b := State.settleReleaseEnd_due s.settleReset
  have c := State.settleDrainEnd_due s.settleReset.settleReleaseEnd
  have d := State.settleDelivery_due s.settleReset.settleReleaseEnd.settleDrainEnd
  have e := State.settleLine_due s.settleReset.settleReleaseEnd.settleDrainEnd.settleDelivery
  have f := State.settleStation_due s.settleReset.settleReleaseEnd.settleDrainEnd.settleDelivery.settleLine
  have g := State.settleOffer_due
    s.settleReset.settleReleaseEnd.settleDrainEnd.settleDelivery.settleLine.settleStation
  have i := State.settleLine_due
    s.settleReset.settleReleaseEnd.settleDrainEnd.settleDelivery.settleLine.settleStation.settleOffer
  unfold State.settle
  simp only [i, g, f, e, d, c, b, a, and_self]

/-- Settling twice is settling once. -/
theorem State.settle_settle (s : State) : s.settle.settle = s.settle := State.settle_of_nothingDue s.settle_nothingDue

/-- A settled state that takes commands has nothing due. -/
theorem State.Settled.nothingDue {s : State} (h : s.Settled) (hr : s.pins.resetn = true) : s.nothingDue = true := h hr

/-! ## Events -/

/-- An event while RESETN is high. -/
theorem State.event_high {s : State} (f : State → State) (h : s.pins.resetn = true) : s.event f = .next (f s) := by
  simp [State.event, h]

/-- An event while RESETN is low. -/
theorem State.event_low {s : State} (f : State → State) (h : s.pins.resetn = false) : s.event f = .next s := by
  simp [State.event, h]

/-- Every command but HARDWARE_RESET is an event: taken while RESETN is high, without effect while it is low. -/
theorem exec_event (c : Instr) (hc : ∀ straps l r, c ≠ .hardwareReset straps l r) :
    ∃ f : State → State, ∀ s, exec c s = s.event f := by
  cases c
  case hardwareReset a b d => exact absurd rfl (hc a b d)
  all_goals exact ⟨_, fun _ => rfl⟩

end Sys2Proof.Machine
end

