-- ==== Sys2Proof/Laws/Hold.lean ====
section
/-! SUPPORT. The hold store: what each of its operations does to the list, the free count and the accounts. -/

namespace Sys2Proof.Machine

/-! ## Freeing descriptors -/

@[simp] theorem HoldStore.free_parts (h : HoldStore) (why : Leave) (d : Descriptor) :
    (h.free why d).list = h.list ∧ (h.free why d).nextSerial = h.nextSerial ∧ (h.free why d).configs = h.configs ∧
      (h.free why d).freeBlocks = h.freeBlocks + d.blocks := ⟨rfl, rfl, rfl, rfl⟩

/-- Freeing several descriptors one after another. -/
theorem HoldStore.foldl_free (why : Leave) (ds : List Descriptor) (h : HoldStore) :
    (ds.foldl (fun h d => h.free why d) h).list = h.list ∧
      (ds.foldl (fun h d => h.free why d) h).nextSerial = h.nextSerial ∧
      (ds.foldl (fun h d => h.free why d) h).configs = h.configs ∧
      (ds.foldl (fun h d => h.free why d) h).freeBlocks = h.freeBlocks + (ds.map Descriptor.blocks).sum := by
  induction ds generalizing h with
  | nil => simp
  | cons d ds ih =>
    obtain ⟨a, b, c, e⟩ := ih (h.free why d)
    simp only [List.foldl_cons, a, b, c, e, List.map_cons, List.sum_cons]
    simp [HoldStore.free, Nat.add_assoc]

/-- A removal keeps the descriptors that are not selected, in their order, and the blocks of the others return. -/
theorem HoldStore.remove_parts (h : HoldStore) (sel : Descriptor → Bool) (why : Leave) :
    (h.remove sel why).list = h.list.filter (fun d => !sel d) ∧ (h.remove sel why).nextSerial = h.nextSerial ∧
      (h.remove sel why).configs = h.configs ∧
      (h.remove sel why).freeBlocks = h.freeBlocks + ((h.list.filter sel).map Descriptor.blocks).sum := by
  obtain ⟨a, b, c, e⟩ := HoldStore.foldl_free why (h.list.filter sel)
    { h with list := h.list.filter fun d => !sel d }
  exact ⟨a, b, c, e⟩

/-- The removal of the oldest selected descriptor, which is found. -/
theorem HoldStore.removeFirst_eq {h : HoldStore} {sel : Descriptor → Bool} {pre post : List Descriptor}
    {d : Descriptor} (why : Leave) (hl : h.list = pre ++ d :: post) (hd : sel d = true)
    (hp : ∀ x ∈ pre, sel x = false) :
    h.removeFirst sel why = { h with list := pre ++ post }.free why d := by
  have e1 : h.list.find? sel = some d := by
    rw [hl, List.find?_append]
    have : pre.find? sel = none := by simpa using hp
    simp [this, hd]
  have e2 : h.list.eraseP sel = pre ++ post := by
    rw [hl, List.eraseP_append_right _ (fun x hx => by simp [hp x hx])]
    simp [hd]
  simp [HoldStore.removeFirst, e1, e2]

/-- The removal of a selected descriptor when there is none. -/
theorem HoldStore.removeFirst_none {h : HoldStore} {sel : Descriptor → Bool} (why : Leave)
    (hn : ∀ x ∈ h.list, sel x = false) : h.removeFirst sel why = h := by
  have : h.list.find? sel = none := by simpa using hn
  simp [HoldStore.removeFirst, this]

/-- The oldest selected descriptor, with what stands before and behind it. -/
theorem exists_first {sel : Descriptor → Bool} {l : List Descriptor} (h : l.any sel = true) :
    ∃ pre d post, l = pre ++ d :: post ∧ sel d = true ∧ ∀ x ∈ pre, sel x = false := by
  induction l with
  | nil => simp at h
  | cons a l ih =>
    by_cases ha : sel a = true
    · exact ⟨[], a, l, rfl, ha, by simp⟩
    · simp only [List.any_cons, ha, Bool.false_or] at h
      obtain ⟨pre, d, post, e, hd, hp⟩ := ih h
      exact ⟨a :: pre, d, post, by simp [e], hd, by simpa [ha] using hp⟩

/-! ## The delivering descriptor -/

/-- What is DELIVERING is not HELD. -/
theorem Descriptor.delivering_not_held {d : Descriptor} : d.isDelivering = true → d.isHeld = false := by
  simp only [Descriptor.isDelivering, Descriptor.isHeld]; cases d.state <;> simp

/-- Removing only HELD descriptors leaves the delivering descriptor. -/
theorem find_delivering_filter {l : List Descriptor} {sel : Descriptor → Bool}
    (h : ∀ d ∈ l, sel d = true → d.isHeld = true) :
    (l.filter fun d => !sel d).find? Descriptor.isDelivering = l.find? Descriptor.isDelivering := by
  induction l with
  | nil => rfl
  | cons a l ih =>
    have ih := ih fun d hd => h d (List.mem_cons_of_mem _ hd)
    by_cases ha : sel a = true
    · have hh := h a (List.mem_cons_self ..) ha
      have hn : a.isDelivering = false := by
        cases hd : a.isDelivering
        · rfl
        · rw [Descriptor.delivering_not_held hd] at hh; exact absurd hh (by simp)
      simp [ha, hn, ih]
    · simp only [Bool.not_eq_true] at ha
      simp [ha, List.find?_cons, ih]

theorem HoldStore.removeFirst_delivering {h : HoldStore} {sel : Descriptor → Bool} (why : Leave)
    (hs : ∀ d ∈ h.list, sel d = true → d.isHeld = true) :
    (h.removeFirst sel why).list.find? Descriptor.isDelivering = h.list.find? Descriptor.isDelivering := by
  cases ha : h.list.any sel
  · rw [HoldStore.removeFirst_none why (by simpa using ha)]
  · obtain ⟨pre, d, post, e, hd, hp⟩ := exists_first ha
    rw [HoldStore.removeFirst_eq why e hd hp]
    have hh := hs d (by simp [e]) hd
    have hn : d.isDelivering = false := by
      cases hdd : d.isDelivering
      · rfl
      · rw [Descriptor.delivering_not_held hdd] at hh; exact absurd hh (by simp)
    simp [HoldStore.free, e, List.find?_append, hn]

/-! ## Offers -/

@[simp] theorem HoldStore.refuse_parts (h : HoldStore) (c : HoldClass) :
    (h.refuse c).list = h.list ∧ (h.refuse c).nextSerial = h.nextSerial ∧ (h.refuse c).configs = h.configs ∧
      (h.refuse c).freeBlocks = h.freeBlocks := ⟨rfl, rfl, rfl, rfl⟩

theorem HoldStore.accept_delivering (h : HoldStore) (c : HoldClass) (o : Origin) (f : Frame) (now : Word32) :
    (h.accept c o f now).list.find? Descriptor.isDelivering = h.list.find? Descriptor.isDelivering := by
  have : List.find? Descriptor.isDelivering
      [({ serial := h.nextSerial, cls := c, origin := o, arrival := now, state := .held, frame := f } : Descriptor)]
      = none := by simp [Descriptor.isDelivering]
  simp only [HoldStore.accept, List.find?_append, this, Option.or_none]

theorem Descriptor.evictable_held {c : HoldClass} {d : Descriptor} (h : d.evictable c = true) : d.isHeld = true := by
  simp only [Descriptor.evictable, Bool.and_eq_true] at h; exact h.1

/-- What an eviction run leaves: the conditions hold, the delivering descriptor is untouched, the configuration and
next serial are kept, and the list is a sublist. -/
theorem HoldStore.evictUntil_parts {c : HoldClass} {n fuel : Nat} {h h' : HoldStore} {k : Nat}
    (he : HoldStore.evictUntil c n fuel h = some (h', k)) :
    h'.fits c n = true ∧ h'.list.find? Descriptor.isDelivering = h.list.find? Descriptor.isDelivering ∧
      h'.configs = h.configs ∧ h'.nextSerial = h.nextSerial ∧ h'.list.Sublist h.list := by
  induction fuel generalizing h k with
  | zero =>
    simp only [HoldStore.evictUntil] at he
    split at he <;> simp_all
  | succ m ih =>
    simp only [HoldStore.evictUntil] at he
    split at he
    · simp_all
    · split at he
      · next ha =>
        simp only [Option.map_eq_some_iff, Prod.mk.injEq, Prod.exists] at he
        obtain ⟨h1, k1, e1, e2, -⟩ := he
        subst e2
        obtain ⟨a, b, c1, d, e⟩ := ih e1
        obtain ⟨pre, x, post, el, hx, hp⟩ := exists_first ha
        have er := HoldStore.removeFirst_eq .evicted el hx hp
        refine ⟨a, ?_, ?_, ?_, ?_⟩
        · rw [b]; exact HoldStore.removeFirst_delivering _ fun d _ hd => Descriptor.evictable_held hd
        · rw [c1, er]; rfl
        · rw [d, er]; rfl
        · refine e.trans ?_
          rw [er, el]
          simp [HoldStore.free]
      · simp at he

/-- An offer leaves the delivering descriptor and the configuration alone, and a list that was not empty does not
become empty. -/
theorem HoldStore.offer_parts (h : HoldStore) (c : HoldClass) (o : Origin) (f : Frame) (now : Word32) :
    (h.offer c o f now).1.list.find? Descriptor.isDelivering = h.list.find? Descriptor.isDelivering ∧
      (h.offer c o f now).1.configs = h.configs ∧
      (h.list.isEmpty = false → (h.offer c o f now).1.list.isEmpty = false) := by
  unfold HoldStore.offer
  dsimp only
  split
  · exact ⟨HoldStore.accept_delivering .., rfl, fun _ => by simp [HoldStore.accept]⟩
  · split
    · exact ⟨rfl, rfl, id⟩
    · exact ⟨rfl, rfl, id⟩
    · split
      · next he =>
        obtain ⟨-, b, c1, -, -⟩ := HoldStore.evictUntil_parts he
        exact ⟨(HoldStore.accept_delivering ..).trans b, c1, fun _ => by simp [HoldStore.accept]⟩
      · exact ⟨rfl, rfl, id⟩

theorem State.offerFrame_hold (s : State) (c : HoldClass) (o : Origin) (f : Frame) :
    (s.offerFrame c o f).hold = (s.hold.offer c o f s.time).1 := by
  unfold State.offerFrame
  dsimp only
  split
  · simp
  · simp
  · split <;> simp

/-- A wake decision leaves an away state away and any other state as it was. -/
theorem State.wakeDecision_station (s : State) (c : Cause) :
    (s.wakeDecision c).ctx.station.away = s.ctx.station.away ∧
      ((s.wakeDecision c).ctx.station = s.ctx.station ∨ (s.wakeDecision c).ctx.station = .waking) := by
  unfold State.wakeDecision
  split
  all_goals (try split)
  all_goals simp_all [StationState.away]

theorem State.offerFrame_station (s : State) (c : HoldClass) (o : Origin) (f : Frame) :
    (s.offerFrame c o f).ctx.station.away = s.ctx.station.away ∧
      ((s.offerFrame c o f).ctx.station = s.ctx.station ∨ (s.offerFrame c o f).ctx.station = .waking) := by
  unfold State.offerFrame
  dsimp only
  split
  · simp
  · simp
  · split
    · have := State.wakeDecision_station
        (((s.setHold (s.hold.offer c o f s.time).1)).raise (.holdPressure c 1 0)) .fullWake
      simpa using this
    · simp

/-- Class B refuses new frames, and wakes nobody (R54, R61). -/
theorem State.offerFrame_backlog_ctx (s : State) (o : Origin) (f : Frame) :
    (s.offerFrame .b o f).ctx = s.ctx ∧ (s.offerFrame .b o f).wake = s.wake := by
  unfold State.offerFrame HoldStore.offer
  simp only [Configs.get, ClassConfig.backlog]
  split
  · next h => split at h <;> simp_all
  · next h => split at h <;> simp_all
  · next h =>
    split at h
    · simp at h
    · simp only [Offer.refused.injEq] at h
      subst h
      simp

/-! ## Classification -/

theorem State.compose_answers (s : State) (f : Frame) (t : Fin 16) : (s.compose f t).ctx = s.ctx := by simp

/-- What a classification event leaves alone: the delivering descriptor, and whether the station is away. -/
theorem State.classify_parts (s : State) (f : Frame) :
    (s.classify f).delivering = s.delivering ∧ (s.classify f).ctx.station.away = s.ctx.station.away ∧
      ((s.classify f).ctx.station = s.ctx.station ∨ (s.classify f).ctx.station = .waking) := by
  have key : ∀ (u : State) (c : HoldClass) (o : Origin), u.hold = s.hold → u.ctx = s.ctx →
      (u.offerFrame c o f).delivering = s.delivering ∧
        (u.offerFrame c o f).ctx.station.away = s.ctx.station.away ∧
        ((u.offerFrame c o f).ctx.station = s.ctx.station ∨ (u.offerFrame c o f).ctx.station = .waking) := by
    intro u c o h1 h2
    have a := State.offerFrame_station u c o f
    rw [h2] at a
    refine ⟨?_, a⟩
    simp only [State.delivering, State.offerFrame_hold]
    rw [(HoldStore.offer_parts ..).1, h1]
  have wk : ∀ (u : State) (c : Cause), u.delivering = s.delivering ∧ u.ctx.station.away = s.ctx.station.away ∧
      (u.ctx.station = s.ctx.station ∨ u.ctx.station = .waking) →
      (u.wakeDecision c).delivering = s.delivering ∧ (u.wakeDecision c).ctx.station.away = s.ctx.station.away ∧
      ((u.wakeDecision c).ctx.station = s.ctx.station ∨ (u.wakeDecision c).ctx.station = .waking) := by
    rintro u c ⟨h1, h2, h3⟩
    obtain ⟨a, b⟩ := State.wakeDecision_station u c
    refine ⟨by simpa [State.delivering] using h1, a.trans h2, ?_⟩
    rcases b with b | b
    · rw [b]; exact h3
    · exact .inr b
  unfold State.classify
  split
  · unfold State.disposeByDefault
    dsimp only
    split
    · simp [State.delivering]
    · exact key _ _ _ (by simp) (by simp)
  · dsimp only
    have hd : ∀ i d, ((s.setRules (s.rules.countMatch i)).dispose i d f).delivering = s.delivering ∧
        ((s.setRules (s.rules.countMatch i)).dispose i d f).ctx.station.away = s.ctx.station.away ∧
        (((s.setRules (s.rules.countMatch i)).dispose i d f).ctx.station = s.ctx.station ∨
          ((s.setRules (s.rules.countMatch i)).dispose i d f).ctx.station = .waking) := by
      intro i d
      cases d with
      | discard => simp [State.dispose, State.delivering]
      | hold c => exact key _ _ _ (by simp) (by simp)
      | answer t => simp [State.dispose, State.delivering]
      | answerHold t c => exact key _ _ _ (by simp) (by simp)
    split
    · exact wk _ _ (hd _ _)
    · exact hd _ _

/-! ## What a run of departures leaves of an account -/

/-- The account of a class after `n` frames of `blocks` blocks in all have left it. -/
def Account.leaves (a : Account) (why : Leave) (n blocks : Nat) : Account :=
  let a := { a with used := a.used - blocks, held := a.held - n }
  let k := BitVec.ofNat 32 n
  match why with
  | .delivered => { a with delivered := a.delivered + k }
  | .expired => { a with expired := a.expired + k }
  | .evicted => { a with evicted := a.evicted + k }
  | .purged => { a with purged := a.purged + k }

theorem Account.leave_leaves (a : Account) (why : Leave) (m n blocks : Nat) :
    (a.leave why m).leaves why n blocks = a.leaves why (n + 1) (m + blocks) := by
  have e : ∀ x : Word32, x + 1#32 + BitVec.ofNat 32 n = x + BitVec.ofNat 32 (n + 1) := by
    intro x; rw [BitVec.ofNat_add, BitVec.add_assoc, BitVec.add_comm 1#32]
  have e2 : ∀ x : Nat, x - 1 - n = x - (n + 1) := fun x => by omega
  cases why <;> simp [Account.leave, Account.leaves, e, e2, Nat.sub_sub]

/-- Each class's account after a run of departures. -/
theorem HoldStore.foldl_free_account (why : Leave) (c : HoldClass) (ds : List Descriptor) (h : HoldStore) :
    (ds.foldl (fun h d => h.free why d) h).accounts.get c =
      (h.accounts.get c).leaves why (ds.filter fun d => decide (d.cls = c)).length
        ((ds.filter fun d => decide (d.cls = c)).map Descriptor.blocks).sum := by
  induction ds generalizing h with
  | nil => cases why <;> simp [Account.leaves]
  | cons d ds ih =>
    rw [List.foldl_cons, ih (h.free why d)]
    by_cases hc : d.cls = c
    · subst hc
      simp [HoldStore.free, Account.leave_leaves]
    · simp [HoldStore.free, hc, Accounts.get_set_ne _ _ (Ne.symm hc)]

/-- Each class's account after the removal of the selected descriptors. -/
theorem HoldStore.remove_account (h : HoldStore) (sel : Descriptor → Bool) (why : Leave) (c : HoldClass) :
    (h.remove sel why).accounts.get c =
      (h.accounts.get c).leaves why ((h.list.filter sel).filter fun d => decide (d.cls = c)).length
        (((h.list.filter sel).filter fun d => decide (d.cls = c)).map Descriptor.blocks).sum :=
  HoldStore.foldl_free_account ..

end Sys2Proof.Machine
end

