-- ==== Sys2Proof/Laws/Classify.lean ====
section
/-! SUPPORT. The classifier and the answer generator: what the search, the selection,
    the substitutions and the commit come to. -/

namespace Sys2Proof.Machine

/-! ## The search -/

/-- The first entry whose rule matches is found. -/
theorem findRule_some {sets : BitVec 4} {d : DestClass} {f : Frame} : ∀ (l : List ActiveEntry) (k i : Nat)
    (e : ActiveEntry) (r : RuleRecord),
    l[i]? = some e → e.record = some r → r.matchesFrame sets d f = true →
    (∀ (j : Nat) (e' : ActiveEntry) (r' : RuleRecord), j < i → l[j]? = some e' → e'.record = some r'
        → r'.matchesFrame sets d f = false) →
    findRule sets d f k l = some (k + i, r) := by
  intro l
  induction l with
  | nil => intro k i e r h; simp at h
  | cons a l ih =>
    intro k i e r h he hr hb
    cases i with
    | zero =>
      simp at h; subst h
      simp [findRule, he, hr]
    | succ i =>
      have step := ih (k+1) i e r (by simpa using h) he hr (fun j e' r' hj h1 h2 => hb (j+1) e' r' (by omega)
          (by simpa using h1) h2)
      have h0 := hb 0 a
      unfold findRule
      split
      · rw [step]; congr 2; omega
      · next r0 hr0 => rw [if_neg (by simp [h0 r0 (by omega) (by simp) hr0]), step]; congr 2; omega

/-- Nothing is found where no rule matches. -/
theorem findRule_none {sets : BitVec 4} {d : DestClass} {f : Frame} : ∀ (l : List ActiveEntry) (k : Nat),
    (∀ (e : ActiveEntry) (r : RuleRecord), e ∈ l → e.record = some r → r.matchesFrame sets d f = false)
        → findRule sets d f k l = none := by
  intro l
  induction l with
  | nil => intro k _; rfl
  | cons a l ih =>
    intro k h
    have := ih (k+1) (fun e r he => h e r (by simp [he]))
    unfold findRule
    split
    · exact this
    · next r0 hr0 => rw [if_neg (by simp [h a r0 (by simp) hr0]), this]

/-! ## The selection -/

/-- The selected bytes, offset by offset. -/
theorem selectBytes_eq (f : Frame) : ∀ (m : List Bool) (o : Nat), o + m.length ≤ f.length →
   selectBytes m (f.drop o) = (((List.range m.length).filter fun k => m.getD k false).map fun k => o + k).map
       (byteAt f) := by
  intro m
  induction m with
  | nil => intro o _; cases h : f.drop o <;> rfl
  | cons a m ih =>
    intro o h
    simp only [List.length_cons] at h
    have ho : o < f.length := by omega
    rw [List.drop_eq_getElem_cons ho]
    have ih := ih (o+1) (by omega)
    simp only [List.length_cons, List.range_succ_eq_map, selectBytes]
    have hb : byteAt f o = f[o] := by rw [byteAt, List.drop_eq_getElem_cons ho]; rfl
    have e : ((((List.range m.length).map Nat.succ).filter fun k => (a::m).getD k false).map fun k => o + k).map
        (byteAt f) = ((((List.range m.length)).filter fun k => m.getD k false).map fun k => (o+1) + k).map
        (byteAt f) := by
      rw [List.filter_map, List.map_map, List.map_map, List.map_map]
      congr 1
      funext k; simp; congr 1; omega
    rw [List.filter_cons]
    cases a
    · simp only [List.getD_cons_zero, Bool.false_eq_true, if_false]
      rw [e, ih]
    · simp only [List.getD_cons_zero, if_true, List.map_cons, Nat.add_zero, hb]
      rw [e, ih]

/-- The selected bytes of a frame that holds the window. -/
theorem RuleRecord.selected_eq (r : RuleRecord) (f : Frame) (h : r.windowOffset + r.mask.length ≤ f.length) :
  r.selected f = r.offsets.map (byteAt f) := by
  simp only [RuleRecord.selected, RuleRecord.offsets]; exact selectBytes_eq f r.mask _ h

/-- A frame that has a destination. -/
theorem list6 {f : List Byte} (h : 6 ≤ f.length) : ∃ a b c d e g t, f = a::b::c::d::e::g::t := by
  match f, h with
  | a::b::c::d::e::g::t, _ => exact ⟨a,b,c,d,e,g,t,rfl⟩

/-! ## The substitutions -/

/-- When a source cannot supply its bytes. -/
theorem State.supply_none {s : State} {f : Frame} {x : Source} : s.supply f x = none ↔ (x = .stationAddress
    ∧ s.ctx.address = none) ∨
          ∃ off n, x = .triggerBytes off n ∧ f.length < off + n := by
  cases x <;> simp [State.supply]

/-- A source supplies as many bytes as its size. -/
theorem State.supply_length {s : State} {f : Frame} {x : Source} {b : List Byte} (hf : 12 ≤ f.length)
    (h : s.supply f x = some b) : b.length = x.size := by
  cases x <;> simp [State.supply] at h
  · subst h; simp [Source.size]; omega
  · obtain ⟨a, _, rfl⟩ := h; rfl
  · subst h; rfl
  · obtain ⟨h1, rfl⟩ := h; simp [Source.size]; omega

/-- One source that cannot supply fails them all. -/
theorem State.substitute_none {s : State} {f : Frame} : ∀ (l : List Substitution) (body : List Byte),
    (∃ x ∈ l, s.supply f x.source = none) → s.substitute f l body = none := by
  intro l
  induction l with
  | nil => intro _ h; simp at h
  | cons a l ih =>
    intro body h
    unfold State.substitute
    split
    · rfl
    · next hb =>
      apply ih
      obtain ⟨x, hx, hn⟩ := h
      rcases List.mem_cons.1 hx with rfl | hx
      · rw [hn] at hb; simp at hb
      · exact ⟨x, hx, hn⟩

/-- What an overwrite leaves and what it writes. -/
theorem overwrite_spec {body b : List Byte} {o : Nat} (h : o + b.length ≤ body.length) :
    (overwrite body o b).length = body.length ∧ (∀ k, k < o ∨ o + b.length ≤ k → (overwrite body o b)[k]? = body[k]?) ∧
    (∀ k, k < b.length → (overwrite body o b)[o + k]? = b[k]?) := by
  refine ⟨?_, ?_, ?_⟩
  · simp [overwrite]; omega
  · intro k hk
    simp only [overwrite, List.append_assoc]
    rcases hk with hk | hk
    · rw [List.getElem?_append_left (by simp; omega)]; rw [List.getElem?_take_of_lt hk]
    · rw [List.getElem?_append_right (by simp; omega), List.getElem?_append_right (by simp; omega)]
      simp only [List.getElem?_drop, List.length_take]; congr 1; omega
  · intro k hk
    simp only [overwrite, List.append_assoc]
    rw [List.getElem?_append_right (by simp), List.getElem?_append_left (by simp; omega)]
    congr 1; simp; omega

/-- What the substitutions leave of the body and write into it. -/
theorem State.substitute_some {s : State} {f : Frame} (hf : 12 ≤ f.length) : ∀ (l : List Substitution)
    (body : List Byte),
    (∀ x ∈ l, s.supply f x.source ≠ none) → (∀ x ∈ l, x.target + x.source.size ≤ body.length) →
    ∃ out, s.substitute f l body = some out ∧ out.length = body.length ∧
      (∀ k, (∀ x ∈ l, k < x.target ∨ x.target + x.source.size ≤ k) → out[k]? = body[k]?) ∧
      (∀ before x after, l = before ++ x :: after →
         (∀ y ∈ after, y.target + y.source.size ≤ x.target ∨ x.target + x.source.size ≤ y.target) →
         s.supply f x.source = some ((out.drop x.target).take x.source.size)) := by
  intro l
  induction l with
  | nil => intro body _ _; exact ⟨body, rfl, rfl, fun _ _ => rfl, fun b x a h => by simp at h⟩
  | cons a l ih =>
    intro body h1 h2
    obtain ⟨b, hb⟩ := Option.ne_none_iff_exists'.1 (h1 a (by simp))
    have hbl := State.supply_length hf hb
    have hfit := h2 a (by simp)
    obtain ⟨o1, o2, o3⟩ := overwrite_spec (body := body) (b := b) (o := a.target) (by omega)
    obtain ⟨out, e1, e2, e3, e4⟩ := ih (overwrite body a.target b) (fun x hx => h1 x (by simp [hx]))
        (fun x hx => by rw [o1]; exact h2 x (by simp [hx]))
    refine ⟨out, by simp only [State.substitute, hb, e1], by rw [e2, o1], ?_, ?_⟩
    · intro k hk
      rw [e3 k (fun x hx => hk x (by simp [hx])), o2 k (by rw [hbl]; exact hk a (by simp))]
    · intro before x after hl hx
      cases before with
      | cons c before =>
        simp at hl; exact e4 before x after hl.2 hx
      | nil =>
        simp at hl; obtain ⟨rfl, rfl⟩ := hl
        rw [hb]; congr 1
        apply List.ext_getElem?
        intro k
        by_cases hk : k < a.source.size
        · rw [List.getElem?_take_of_lt hk, List.getElem?_drop, e3 (a.target + k)
              (fun y hy => by rcases hx y hy with h | h <;> omega), o3 k (by omega)]
        · rw [List.getElem?_eq_none (by omega), List.getElem?_eq_none (by simp; omega)]

/-! ## The commit -/

/-- A commit applies each staged entry to the active entry of its index. -/
theorem commitTable_spec : ∀ (a : List ActiveEntry) (b : List StagedEntry), (commitTable a b).length = a.length ∧
   ∀ (i : Nat) (e : ActiveEntry) (x : StagedEntry), a[i]? = some e → b[i]? = some x → (commitTable a b)[i]? = some
       (e.commit x) := by
  intro a
  induction a with
  | nil => intro b; cases b <;> simp [commitTable]
  | cons e es ih =>
    intro b
    cases b with
    | nil => simp [commitTable]
    | cons x xs =>
      obtain ⟨i1, i2⟩ := ih xs
      refine ⟨by simp [commitTable, i1], ?_⟩
      intro i
      cases i with
      | zero => intro e' x'; simp only [commitTable, List.getElem?_cons_zero, Option.some.injEq]; rintro rfl rfl; rfl
      | succ i => intro e' x'; simpa [commitTable] using i2 i e' x'

end Sys2Proof.Machine
end

