-- ==== Sys2Proof/Laws/Session.lean ====
section
/-! SUPPORT. How a command of the table reaches its owning block, and what its response leaves: one lemma for each
stage of R127, R129 and R137. -/

namespace Sys2Proof.Machine

/-! ## Codes and lengths -/

@[simp] theorem Cmd.ofCode_code (k : Cmd) : Cmd.ofCode k.code = some k := by cases k <;> decide

theorem Cmd.boundOnly_permitted {k : Cmd} (h : k.boundOnly = true) : k.permitted .line = true := by
  cases k <;> simp_all [Cmd.boundOnly, Cmd.permitted]

theorem Cmd.boundOnly_ne_bind {k : Cmd} (h : k.boundOnly = true) : k ≠ .bind := by
  rintro rfl; simp [Cmd.boundOnly] at h

@[simp] theorem Ctl.ofCommand_fits (h : CmdHeader) (k : Cmd) (ps : List Byte) :
    (Ctl.ofCommand h k ps).fits = decide (ps.length ≤ 1024) := by
  show (decide (ps.length ≤ 1024) && decide (24 + ps.length ≤ max 64 (24 + ps.length + 4) - 4)) = _
  rw [decide_eq_true (p := 24 + ps.length ≤ max 64 (24 + ps.length + 4) - 4) (by omega), Bool.and_true]

/-- Parameters of at most 1024 bytes make a frame of acceptable length. -/
theorem ctlFrameLength_le {n : Nat} (h : n ≤ 1024) : ctlFrameLength n ≤ Config.maxFrame := by
  simp only [ctlFrameLength, Config.minFrame, Config.maxFrame]; omega

/-- A command carried by a row of the table is the arrival of its control frame. -/
theorem exec_asCommand {i : Instr} {h : CmdHeader} {k : Cmd} {ps : List Byte} (s : State)
    (hi : i.asCommand = some (h, k, ps)) : exec i s = s.event fun s => s.command h k ps := by
  cases i <;> simp only [Instr.asCommand, Option.some.injEq, Prod.mk.injEq, reduceCtorEq] at hi <;>
    (obtain ⟨rfl, rfl, rfl⟩ := hi; rfl)

/-- The permitted lengths are short. -/
theorem Cmd.lengthOk_le {k : Cmd} {n : Nat} (h : k.lengthOk n = true) : n ≤ 285 := by
  cases k <;> simp [Cmd.lengthOk] at h <;> omega

/-- A well-formed row fits a frame. -/
theorem wellFormed_fits {i : Instr} {h : CmdHeader} {k : Cmd} {ps : List Byte} (hi : i.asCommand = some (h, k, ps))
    (hw : i.wellFormed = true) : 24 + ps.length + 4 ≤ Config.maxFrame := by
  cases i <;> simp only [Instr.asCommand, Option.some.injEq, Prod.mk.injEq, reduceCtorEq] at hi <;>
    (obtain ⟨rfl, rfl, rfl⟩ := hi;
     simp [Instr.wellFormed, paramsFit, Config.maxFrame, be16] at hw ⊢ <;> omega)

/-! ## From the arrival to the judging -/

/-- The reception of a control frame, counted. -/
theorem State.heard_eq (s : State) (p : Port) :
    ((s.setRx p none).countReceived p).countConsumed p = s.heard p := by cases p <;> rfl

@[simp] theorem State.heard_keeps (s : State) (p : Port) :
    (s.heard p).pending = s.pending ∧ (s.heard p).pins = s.pins ∧ (s.heard p).unitStraps = s.unitStraps ∧
    (s.heard p).time = s.time ∧ (s.heard p).ctx = s.ctx ∧ (s.heard p).rules = s.rules ∧
    (s.heard p).hold = s.hold ∧ (s.heard p).releaseTimer = s.releaseTimer ∧ (s.heard p).wake = s.wake ∧
    (s.heard p).answers = s.answers ∧ (s.heard p).transit = s.transit ∧ (s.heard p).responder = s.responder ∧
    (s.heard p).notices = s.notices ∧ (s.heard p).freeCount = s.freeCount := by
  cases p <;> simp [State.heard]

@[simp] theorem State.heard_control (s : State) (p q : Port) : (s.heard p).controlQueue q = s.controlQueue q := by
  cases p <;> cases q <;> rfl

@[simp] theorem State.heard_unit (s : State) (p : Port) : (s.heard p).unitAddress = s.unitAddress := by
  cases p <;> rfl

/-- A control frame that none of the tests of R127 discards is judged; then the part's own steps follow. -/
theorem State.command_judged {s : State} {h : CmdHeader} (k : Cmd) (ps : List Byte) (hj : s.Judges h)
    (hl : ctlFrameLength ps.length ≤ Config.maxFrame) :
    s.command h k ps = ((s.heard h.port).judge (Ctl.ofCommand h k ps)).settle := by
  have hroom := hj.room
  have hc : (s.heard h.port).respond (Ctl.ofCommand h k ps) = (s.heard h.port).judge (Ctl.ofCommand h k ps) := by
    simp [State.respond, Ctl.ofCommand, hj.noReset, hj.individual, not_le.2 hroom]
  rw [← hc, ← State.heard_eq]
  simp only [State.command, hj.up, hl, if_true, State.consume]
  rfl

/-- The order of checks 1 to 4 for a command of the table (R129). -/
theorem State.judge_command (s : State) (h : CmdHeader) (k : Cmd) (ps : List Byte) :
    s.judge (Ctl.ofCommand h k ps) =
      if ps.length ≤ 1024 ∧ k.lengthOk ps.length = true then
        if k.permitted h.port then
          if k.boundOnly then s.judgeBound k (Ctl.ofCommand h k ps)
          else if k = .bind then s.judgeBind (Ctl.ofCommand h k ps)
          else s.judgeFree k (Ctl.ofCommand h k ps)
        else s.answer (Ctl.ofCommand h k ps) .notPermitted []
      else s.answer (Ctl.ofCommand h k ps) .badLength [] := by
  have h1 : (Ctl.ofCommand h k ps).version = 1 := rfl
  have h2 : (Ctl.ofCommand h k ps).code = k.code := rfl
  have h3 : (Ctl.ofCommand h k ps).kind = 1 := rfl
  have h4 : (Ctl.ofCommand h k ps).port = h.port := rfl
  have h5 : (Ctl.ofCommand h k ps).plen = ps.length := rfl
  simp only [State.judge, State.judgeCommand, h1, h2, h3, h4, h5, Cmd.ofCode_code, Ctl.ofCommand_fits, ne_eq,
    not_true_eq_false, if_false, Bool.and_eq_true, decide_eq_true_eq, Bool.not_eq_true']
  split
  · cases k.permitted h.port <;> simp
  · rfl

/-- The response of a command of the table is the reply of R126. -/
theorem Ctl.ofCommand_response (s : State) (h : CmdHeader) (k : Cmd) (ps : List Byte) (x : Status) (b : List Byte) :
    (Ctl.ofCommand h k ps).response s.unitAddress x b = s.reply h k x b := rfl

/-! ## From the response to the settled state -/

/-- What the reception and the placing of a response leave: the transmitter of an idle port begins with the
response, since a settled idle port has nothing else to send. -/
theorem State.place_settleLine {s : State} (r : CtlFrame) (hu : s.line.linkUp = true)
    (hs : s.lineChoiceDue = false) :
    ((s.heard .line).place .line r).settleLine = s.withReply .line r := by
  have e : (s.heard .line).place .line r =
      s.setLine { s.line with
        rx := none, control := s.line.control ++ [r], counters := s.line.counters.consumed } := rfl
  rw [e]
  cases ht : s.line.tx with
  | none =>
    have : s.line.control = [] := by
      simp only [State.lineChoiceDue, ht, hu] at hs
      simp at hs; exact hs.1.1
    rw [State.settleLine_of_due (by simp [State.lineChoiceDue, ht, hu])]
    simp [State.lineChoice, State.withReply, this, ht, State.setLine]
  | some x =>
    rw [State.settleLine_of_not (by simp [State.lineChoiceDue, ht])]
    simp [State.withReply, ht]

/-- The same at the station port. -/
theorem State.place_settleStation {s : State} (r : CtlFrame) (hu : s.station.linkUp = true)
    (hs : s.stationChoiceDue = false) :
    ((s.heard .station).place .station r).settleStation = s.withReply .station r := by
  have e : (s.heard .station).place .station r =
      s.setStation { s.station with
        rx := none, control := s.station.control ++ [r], counters := s.station.counters.consumed } := rfl
  rw [e]
  cases ht : s.station.tx with
  | none =>
    have : s.station.control = [] := by
      simp only [State.stationChoiceDue, ht, hu] at hs
      simp at hs; exact hs.1.1
    rw [State.settleStation_of_due (by simp [State.stationChoiceDue, ht, hu])]
    simp [State.stationChoice, State.withReply, this, ht, State.setStation]
  | some x =>
    rw [State.settleStation_of_not (by simp [State.stationChoiceDue, ht])]
    simp [State.withReply, ht]

/-- The line of a port that has placed a response: the transmitter of an idle port begins with it. -/
theorem State.settleLine_reply {u s : State} (r : CtlFrame) (hu : s.line.linkUp = true)
    (hl : u.line = ((s.heard .line).place .line r).line)
    (hc : s.line.tx = none → s.line.control = []) :
    u.settleLine = u.setLine (s.withReply .line r).line := by
  have e : u.line = { s.line with
        rx := none, control := s.line.control ++ [r], counters := s.line.counters.consumed } := hl
  cases ht : s.line.tx with
  | none =>
    rw [State.settleLine_of_due (by simp [State.lineChoiceDue, e, ht, hu])]
    simp [State.lineChoice, State.withReply, e, ht, hc ht]
  | some x =>
    rw [State.settleLine_of_not (by simp [State.lineChoiceDue, e, ht])]
    ext <;> simp [e, State.withReply, ht]

/-- What the part does of its own accord after a response was placed on the line port and nothing but the offer of a
notice can have become due: the transmitter begins with the response if it was idle, then the offer. -/
theorem State.settle_lineReply {u s : State} (r : CtlFrame) (hu : s.line.linkUp = true)
    (hl : u.line = ((s.heard .line).place .line r).line) (h1 : u.resetDue = false) (h2 : u.releaseEndDue = false)
    (h3 : u.drainEndDue = false) (h4 : u.deliveryDue = false) (h5 : u.stationChoiceDue = false)
    (hc : s.line.tx = none → s.line.control = []) :
    u.settle = (u.setLine (s.withReply .line r).line).settleOffer := by
  have e := State.settleLine_reply r hu hl hc
  have h6 : u.settleLine.stationChoiceDue = false := by rw [(State.settleLine_due u).2.1, h5]
  rw [State.settle_of_idle h1, State.settleReleaseEnd_of_not h2, e]
  · refine State.settleLine_of_not ?_
    have : (u.setLine (s.withReply .line r).line).settleOffer.line.tx = some (s.line.tx.getD .control) := by
      simp only [State.settleOffer, State.when]
      split
      · unfold State.noticeOffer
        split <;> simp [State.withReply]
      · simp [State.withReply]
    simp [State.lineChoiceDue, this]
  · rw [State.settleReleaseEnd_of_not h2, h3]
  · rw [State.settleReleaseEnd_of_not h2, h4]
  · rw [State.settleReleaseEnd_of_not h2, h6]

/-- A settled idle port has nothing in its control queue. -/
theorem State.lineIdle {s : State} (h : s.lineChoiceDue = false) (hu : s.line.linkUp = true) :
    s.line.tx = none → s.line.control = [] := by
  intro ht
  simp only [State.lineChoiceDue, ht, hu] at h
  simp at h; exact h.1.1

theorem State.stationIdle {s : State} (h : s.stationChoiceDue = false) (hu : s.station.linkUp = true) :
    s.station.tx = none → s.station.control = [] := by
  intro ht
  simp only [State.stationChoiceDue, ht, hu] at h
  simp at h; exact h.1.1

/-- Where the notice unit had room and did not offer, more frames in the line control queue and no new binding do not
make it offer. -/
theorem State.offerDue_of_parts {s v : State} (hs : s.offerDue = false) (hr : s.line.control.length < 4)
    (hq : v.notices.queue = s.notices.queue) (ht : v.notices.timer = s.notices.timer)
    (hb : v.responder.binding.isSome = true → s.responder.binding.isSome = true) : v.offerDue = false := by
  simp only [State.offerDue, Config.lineControlCap, hr, decide_true, Bool.and_true] at hs
  simp only [State.offerDue, hq, ht]
  cases hv : v.responder.binding.isSome
  · simp
  · rw [hb hv] at hs
    simp only [hs, Bool.false_and]

theorem State.offerDue_of_room {s v : State} (hs : s.offerDue = false) (hr : s.line.control.length < 4)
    (hn : v.notices = s.notices)
    (hb : v.responder.binding.isSome = true → s.responder.binding.isSome = true) : v.offerDue = false :=
  State.offerDue_of_parts hs hr (by rw [hn]) (by rw [hn]) hb

/-- The session's own changes: a response placed on the line port of a settled state, and a binding record that is
set where one was, or ended. -/
theorem State.settle_lineSession {s u : State} (r : CtlFrame) (hs : s.nothingDue = true) (hu : s.line.linkUp = true)
    (hr : s.line.control.length < 4)
    (hl : u.line = ((s.heard .line).place .line r).line)
    (h1 : u.responder.resetPending = none) (h2 : u.ctx = s.ctx) (h3 : u.hold = s.hold) (h4 : u.transit = s.transit)
    (h5 : u.releaseTimer = s.releaseTimer) (h6 : u.station = s.station)
    (h7 : u.offerDue = false ∨ (u.notices = s.notices ∧
      (u.responder.binding.isSome = true → s.responder.binding.isSome = true))) :
    u.settle = u.setLine (s.withReply .line r).line := by
  obtain ⟨_, d2, d3, d4, d5, d6, d7⟩ := (State.nothingDue_iff s).1 hs
  rw [State.settle_lineReply r hu hl]
  · apply State.settleOffer_of_not
    rcases h7 with h7 | ⟨h7, h8⟩
    · have e : u.line = { s.line with
        rx := none, control := s.line.control ++ [r], counters := s.line.counters.consumed } := hl
      simpa [State.offerDue, State.withReply, e] using h7
    · exact State.offerDue_of_room d7 hr (by simp [h7]) (by simpa using h8)
  · simp [State.resetDue, h1]
  · rw [← d2]; simp [State.releaseEndDue, h2, h3]
  · rw [← d3]; simp [State.drainEndDue, State.drained, State.delivering, h2, h3, h4]
  · rw [← d4]; simp [State.deliveryDue, State.delivering, h2, h3, h4, h5]
  · rw [← d6]; simp [State.stationChoiceDue, State.delivering, h3, h4, h6]
  · exact State.lineIdle d5 hu

/-- A response placed on the station port of a settled state. -/
theorem State.settle_stationReply {s u : State} (r : CtlFrame) (hu : s.station.linkUp = true)
    (hl : u.station = ((s.heard .station).place .station r).station)
    (h1 : u.resetDue = false) (h2 : u.releaseEndDue = false) (h3 : u.drainEndDue = false)
    (h4 : u.deliveryDue = false) (h5 : u.lineChoiceDue = false)
    (hc : s.station.tx = none → s.station.control = []) :
    u.settle = (u.setStation (s.withReply .station r).station).settleOffer.settleLine := by
  have e : u.station = { s.station with
        rx := none, control := s.station.control ++ [r], counters := s.station.counters.consumed } := hl
  have e2 : u.settleStation = u.setStation (s.withReply .station r).station := by
    cases ht : s.station.tx with
    | none =>
      rw [State.settleStation_of_due (by simp [State.stationChoiceDue, e, ht, hu])]
      simp [State.stationChoice, State.withReply, e, ht, hc ht]
    | some x =>
      rw [State.settleStation_of_not (by simp [State.stationChoiceDue, e, ht])]
      ext <;> simp [e, State.withReply, ht]
  rw [State.settle, State.settleReset_of_not h1, State.settleReleaseEnd_of_not h2, State.settleDrainEnd_of_not h3,
    State.settleDelivery_of_not h4, State.settleLine_of_not h5, e2]

/-- A response placed on a port of a settled state, and nothing else. -/
theorem State.settle_placed {s : State} (p : Port) (r : CtlFrame) (hs : s.nothingDue = true)
    (hu : s.linkUp p = true) (hp : s.responder.resetPending = none)
    (hr : (s.controlQueue p).length < controlCap p) : ((s.heard p).place p r).settle = s.withReply p r := by
  cases p with
  | line =>
    rw [State.settle_lineSession r hs hu hr rfl hp rfl rfl rfl rfl rfl (.inr ⟨rfl, id⟩)]
    ext <;> simp [State.withReply, State.place, State.heard]
  | station =>
    obtain ⟨d1, d2, d3, d4, d5, d6, d7⟩ := (State.nothingDue_iff s).1 hs
    rw [State.settle_stationReply r hu rfl (by simp [State.resetDue, hp]) d2 d3 d4 d5 (State.stationIdle d6 hu)]
    have e : ((s.heard .station).place .station r).setStation (s.withReply .station r).station =
        s.withReply .station r := by
      ext <;> simp [State.withReply, State.place, State.heard]
    have e1 : (s.withReply .station r).offerDue = s.offerDue := rfl
    have e2 : (s.withReply .station r).lineChoiceDue = s.lineChoiceDue := rfl
    rw [e, State.settleOffer_of_not (e1.trans d7), State.settleLine_of_not (e2.trans d5)]

/-- The answer to a command of the table, placed. -/
theorem State.answer_ofCommand (s : State) (h : CmdHeader) (k : Cmd) (ps : List Byte) (x : Status) (b : List Byte) :
    s.answer (Ctl.ofCommand h k ps) x b = s.place h.port (s.reply h k x b) := rfl

@[simp] theorem State.heard_reply (s : State) (p : Port) (h : CmdHeader) (k : Cmd) (x : Status) (b : List Byte) :
    (s.heard p).reply h k x b = s.reply h k x b := by
  simp [State.reply]

/-- A command of the table that is judged: the judging on the counted reception, then the part's own steps. -/
theorem exec_judged {i : Instr} {s : State} {h : CmdHeader} {k : Cmd} {ps : List Byte}
    (hi : i.asCommand = some (h, k, ps)) (hj : s.Judges h) (hl : ps.length ≤ 1024) :
    exec i s = .next ((s.heard h.port).judge (Ctl.ofCommand h k ps)).settle := by
  rw [exec_asCommand s hi, State.event_high _ hj.high, State.command_judged _ _ hj (ctlFrameLength_le hl)]

/-- A refusal on a settled state: the response and nothing else. -/
theorem exec_refusal {i : Instr} {s : State} {h : CmdHeader} {k : Cmd} {ps : List Byte} {x : Status} {b : List Byte}
    (hi : i.asCommand = some (h, k, ps)) (hs : s.Settled) (hj : s.Judges h) (hl : ps.length ≤ 1024)
    (he : (s.heard h.port).judge (Ctl.ofCommand h k ps) = (s.heard h.port).answer (Ctl.ofCommand h k ps) x b) :
    exec i s = .next (s.withReply h.port (s.reply h k x b)) := by
  rw [exec_judged hi hj hl, he, State.answer_ofCommand, State.heard_reply,
    State.settle_placed _ _ (hs hj.high) hj.up hj.noReset hj.room]

/-- A bound-only command that reaches its session checks. -/
theorem judge_bound (s : State) {h : CmdHeader} {k : Cmd} {ps : List Byte} (hb : k.boundOnly = true)
    (hl : k.lengthOk ps.length = true) (hp : h.port = .line) :
    s.judge (Ctl.ofCommand h k ps) = s.judgeBound k (Ctl.ofCommand h k ps) := by
  rw [State.judge_command]
  have := Cmd.lengthOk_le hl
  simp [hl, hb, hp, Cmd.boundOnly_permitted hb, (by omega : ps.length ≤ 1024)]

/-- The command executed under its binding: what stands before the part's own steps. -/
theorem judge_executes {s : State} {h : CmdHeader} {k : Cmd} {ps : List Byte} {b : Binding} (hx : s.Executes h b)
    (hb : k.boundOnly = true) (hl : k.lengthOk ps.length = true) :
    (s.heard h.port).judge (Ctl.ofCommand h k ps) =
      (s.heard .line).execute k (Ctl.ofCommand h k ps) b := by
  rw [judge_bound _ hb hl hx.port, hx.port]
  have h1 : (Ctl.ofCommand h k ps).source = h.source := rfl
  have h2 : (Ctl.ofCommand h k ps).seq = h.seq := rfl
  simp only [State.judgeBound, State.heard_keeps, hx.binding, h1, h2, hx.manager, hx.sequence, ne_eq,
    not_true_eq_false, if_false, if_true]

/-- A command executed under its binding (R137, R138): the owner's work, the response, the session's record, and the
part's own steps. -/
theorem exec_executes {i : Instr} {s : State} {h : CmdHeader} {k : Cmd} {ps : List Byte} {b : Binding}
    (hi : i.asCommand = some (h, k, ps)) (hx : s.Executes h b) (hb : k.boundOnly = true)
    (hl : k.lengthOk ps.length = true) :
    exec i s = .next ((s.heard .line).execute k (Ctl.ofCommand h k ps) b).settle := by
  rw [exec_judged hi hx.toJudges (by have := Cmd.lengthOk_le hl; omega), judge_executes hx hb hl]

/-- The execution of a command other than UNBIND. -/
theorem State.execute_eq (s : State) (h : CmdHeader) (k : Cmd) (ps : List Byte) (b : Binding) (hk : k ≠ .unbind) :
    s.execute k (Ctl.ofCommand h k ps) b =
      (((k.own (Ctl.ofCommand h k ps) s).state.place h.port
          (s.reply h k (k.own (Ctl.ofCommand h k ps) s).status (k.own (Ctl.ofCommand h k ps) s).body)).setBinding
        (some (b.accept
          (s.reply h k (k.own (Ctl.ofCommand h k ps) s).status (k.own (Ctl.ofCommand h k ps) s).body)))) := by
  simp only [State.execute, hk, if_false]
  rfl

/-- A command executed that leaves its owning block as it was: `executed`. -/
theorem exec_executed {i : Instr} {s : State} {h : CmdHeader} {k : Cmd} {ps : List Byte} {b : Binding} {x : Status}
    {body : List Byte} (hi : i.asCommand = some (h, k, ps)) (hs : s.Settled) (hx : s.Executes h b)
    (hb : k.boundOnly = true) (hk : k ≠ .unbind) (hl : k.lengthOk ps.length = true)
    (ho : k.own (Ctl.ofCommand h k ps) (s.heard .line) = { state := s.heard .line, status := x, body := body }) :
    exec i s = .next (s.executed h k b x body) := by
  have hr : s.line.control.length < 4 := by have := hx.room; rw [hx.port] at this; exact this
  have hu : s.line.linkUp = true := by have := hx.up; rw [hx.port] at this; exact this
  rw [exec_executes hi hx hb hl, State.execute_eq _ _ _ _ _ hk, ho, hx.port]
  simp only [State.heard_reply]
  refine congrArg _ ?_
  rw [State.settle_lineSession
    (u := ((s.heard .line).place .line (s.reply h k x body)).setBinding (some (b.accept (s.reply h k x body))))
    (s.reply h k x body) (hs hx.high) hu hr rfl hx.noReset rfl rfl rfl rfl rfl
    (.inr ⟨rfl, fun _ => by rw [hx.binding]; rfl⟩)]
  ext <;> simp [State.executed, State.withReply, State.setBinding, State.place, State.heard]

/-- The end of a release and a change of the line port do not touch each other. -/
theorem State.settleReleaseEnd_setLine (s : State) (x : LinePort) :
    (s.setLine x).settleReleaseEnd = s.settleReleaseEnd.setLine x := by
  simp only [State.settleReleaseEnd, State.when]
  have : (s.setLine x).releaseEndDue = s.releaseEndDue := rfl
  rw [this]
  split <;> rfl

/-- A command executed whose owner leaves the ports and the session alone: its work, the response and the session's
record, then the end of a release and the offer of a notice where its work made them due. -/
theorem exec_owned {i : Instr} {s u : State} {h : CmdHeader} {k : Cmd} {ps : List Byte} {b : Binding} {x : Status}
    {body : List Byte} (hi : i.asCommand = some (h, k, ps)) (hs : s.Settled) (hx : s.Executes h b)
    (hb : k.boundOnly = true) (hk : k ≠ .unbind) (hl : k.lengthOk ps.length = true)
    (ho : k.own (Ctl.ofCommand h k ps) (s.heard .line) = { state := u, status := x, body := body })
    (h1 : u.line = (s.heard .line).line) (h2 : u.responder = s.responder) (h3 : u.station = s.station)
    (h4 : u.transit = s.transit) (h5 : u.delivering = s.delivering)
    (h6 : u.drainEndDue = false) (h7 : u.deliveryDue = false) :
    exec i s = .next
      (((u.setLine (s.withReply .line (s.reply h k x body)).line).setBinding
        (some (b.accept (s.reply h k x body)))).settleReleaseEnd.settleOffer) := by
  have hr : s.line.control.length < 4 := by have := hx.room; rw [hx.port] at this; exact this
  have hu : s.line.linkUp = true := by have := hx.up; rw [hx.port] at this; exact this
  obtain ⟨d1, d2, d3, d4, d5, d6, d7⟩ := (State.nothingDue_iff s).1 (hs hx.high)
  rw [exec_executes hi hx hb hl, State.execute_eq _ _ _ _ _ hk, ho, hx.port]
  simp only [State.heard_reply]
  refine congrArg _ ?_
  generalize hw : (u.place .line (s.reply h k x body)).setBinding (some (b.accept (s.reply h k x body))) = w
  have w0 : w.line = ((s.heard .line).place .line (s.reply h k x body)).line := by
    rw [← hw]; simp [State.setBinding, State.place, h1]
  have w1 : w.resetDue = false := by
    rw [← hw]; simp [State.resetDue, State.setBinding, State.place, h2, hx.noReset]
  have w3 : w.drainEndDue = false := by rw [← hw]; exact h6
  have w4 : w.deliveryDue = false := by rw [← hw]; exact h7
  have w6 : w.stationChoiceDue = false := by
    rw [← d6, ← hw]
    have e : ((u.place .line (s.reply h k x body)).setBinding (some (b.accept (s.reply h k x body)))).delivering =
        u.delivering := rfl
    simp only [State.stationChoiceDue, e, h5]
    simp [State.setBinding, State.place, h3, h4]
  have r3 : w.settleReleaseEnd.drainEndDue = false ∧ w.settleReleaseEnd.deliveryDue = false ∧
      w.settleReleaseEnd.stationChoiceDue = false ∧ w.settleReleaseEnd.line = w.line := by
    simp only [State.settleReleaseEnd, State.when]
    split
    · refine ⟨by simp [State.drainEndDue], by simp [State.deliveryDue], ?_, by simp⟩
      rw [← w6]; simp [State.stationChoiceDue, State.delivering]
    · exact ⟨w3, w4, w6, rfl⟩
  have e1 := State.settleLine_reply (u := w.settleReleaseEnd) (s.reply h k x body) hu (r3.2.2.2.trans w0)
    (State.lineIdle d5 hu)
  rw [State.settle_of_idle w1 r3.1 r3.2.1 (by rw [(State.settleLine_due _).2.1]; exact r3.2.2.1), e1]
  have e2 : (u.setLine (s.withReply .line (s.reply h k x body)).line).setBinding
      (some (b.accept (s.reply h k x body))) = w.setLine (s.withReply .line (s.reply h k x body)).line := by
    rw [← hw]; rfl
  rw [e2, State.settleReleaseEnd_setLine]
  refine State.settleLine_of_not ?_
  have : (w.settleReleaseEnd.setLine (s.withReply .line (s.reply h k x body)).line).settleOffer.line.tx =
      some (s.line.tx.getD .control) := by
    simp only [State.settleOffer, State.when]
    split
    · unfold State.noticeOffer
      split <;> simp [State.withReply]
    · simp [State.withReply]
  simp [State.lineChoiceDue, this]

end Sys2Proof.Machine
end

