-- ==== Sys2Proof/Laws/Owners.lean ====
section
/-! SUPPORT. What no owning block touches: the queues and transmitters of the ports, the transit queues, the answer
queue and the binding. -/

namespace Sys2Proof.Machine

/-- The owning blocks leave the queues, the transmitters, the receptions and the binding alone. -/
theorem Cmd.own_session (k : Cmd) (c : Ctl) (s : State) :
    (k.own c s).state.line.control = s.line.control ∧ (k.own c s).state.line.tx = s.line.tx ∧
    (k.own c s).state.line.linkUp = s.line.linkUp ∧ (k.own c s).state.station.control = s.station.control ∧
    (k.own c s).state.station.tx = s.station.tx ∧ (k.own c s).state.station.linkUp = s.station.linkUp ∧
    (k.own c s).state.transit = s.transit ∧ (k.own c s).state.answers.queue = s.answers.queue ∧
    (k.own c s).state.responder.binding = s.responder.binding ∧
    (k.own c s).state.line.rx = s.line.rx ∧ (k.own c s).state.station.rx = s.station.rx := by
  cases k <;> simp only [Cmd.own, Own.refuse_parts, Own.ok_parts, ownIdentify_state, ownStatus_state,
    ownRuleRead_state, ownProfileRead_state, ownTemplateRead_state, ownClassRead_state, ownHoldList_state,
    ownStationQuery_state, and_self]
  case ruleStage =>
    unfold ownRuleStage; dsimp only; repeat' split
    all_goals simp [State.stage]
  case ruleDiscard => simp [ownRuleDiscard]
  case ruleCommit => simp [ownRuleCommit]
  case profileWrite =>
    unfold ownProfileWrite State.undefineProfile; dsimp only; repeat' split
    all_goals simp [State.setProfile]
  case templateWrite =>
    unfold ownTemplateWrite; dsimp only; repeat' split
    all_goals simp [State.setTemplate]
  case classWrite =>
    unfold ownClassWrite; dsimp only; repeat' split
    all_goals simp
  case holdPurge =>
    unfold ownHoldPurge; dsimp only; repeat' split
    all_goals simp [State.purge]
  case wake =>
    unfold ownWake; dsimp only; repeat' split
    all_goals simp
  case noticeAck =>
    unfold ownNoticeAck; dsimp only; repeat' split
    all_goals simp
  case noticeMask =>
    unfold ownNoticeMask; dsimp only; repeat' split
    all_goals simp
  case countersRead =>
    unfold ownCountersRead; dsimp only; repeat' split
    all_goals simp [State.clearPorts, State.clearRules, State.clearAnswers]
  case reset =>
    unfold ownReset; dsimp only; repeat' split
    all_goals simp
  case doze =>
    unfold ownDoze; dsimp only; repeat' split
    all_goals simp
  case resume =>
    unfold ownResume; dsimp only; repeat' split
    all_goals simp

/-- An owning block other than RESET's orders no reset, and RESET does only with OK. -/
theorem Cmd.own_resetPending (k : Cmd) (c : Ctl) (s : State) :
    (k.own c s).state.responder.resetPending = s.responder.resetPending ∨
      (k = .reset ∧ (k.own c s).status = .ok) := by
  cases k <;> simp only [Cmd.own, Own.refuse_parts, Own.ok_parts, ownIdentify_state, ownStatus_state,
    ownRuleRead_state, ownProfileRead_state, ownTemplateRead_state, ownClassRead_state, ownHoldList_state,
    ownStationQuery_state, true_or]
  case ruleStage =>
    unfold ownRuleStage; dsimp only; repeat' split
    all_goals simp [State.stage]
  case ruleDiscard => simp [ownRuleDiscard]
  case ruleCommit => simp [ownRuleCommit]
  case profileWrite =>
    unfold ownProfileWrite State.undefineProfile; dsimp only; repeat' split
    all_goals simp [State.setProfile]
  case templateWrite =>
    unfold ownTemplateWrite; dsimp only; repeat' split
    all_goals simp [State.setTemplate]
  case classWrite =>
    unfold ownClassWrite; dsimp only; repeat' split
    all_goals simp
  case holdPurge =>
    unfold ownHoldPurge; dsimp only; repeat' split
    all_goals simp [State.purge]
  case wake =>
    unfold ownWake; dsimp only; repeat' split
    all_goals simp
  case noticeAck =>
    unfold ownNoticeAck; dsimp only; repeat' split
    all_goals simp
  case noticeMask =>
    unfold ownNoticeMask; dsimp only; repeat' split
    all_goals simp
  case countersRead =>
    unfold ownCountersRead; dsimp only; repeat' split
    all_goals simp [State.clearPorts, State.clearRules, State.clearAnswers]
  case reset =>
    unfold ownReset; dsimp only; repeat' split
    all_goals simp
  case doze =>
    unfold ownDoze; dsimp only; repeat' split
    all_goals simp
  case resume =>
    unfold ownResume; dsimp only; repeat' split
    all_goals simp

/-! ## What `settle` leaves of the line control queue and of the binding when no reset is due -/

/-- Where no reset is due, `settle` leaves the binding and only appends to the line control queue. -/
theorem State.settle_session {s : State} (h : s.resetDue = false) :
    s.settle.responder = s.responder ∧ ∃ later, s.settle.line.control = s.line.control ++ later := by
  have offer : ∀ t : State, ∃ later, t.settleOffer.line.control = t.line.control ++ later := by
    intro t
    simp only [State.settleOffer, State.when]
    split
    · unfold State.noticeOffer
      split
      · unfold State.sendNotice
        split
        · exact ⟨_, rfl⟩
        · exact ⟨[], by simp [State.countLinkDown, State.mapCounters]⟩
      · exact ⟨[], by simp⟩
    · exact ⟨[], by simp⟩
  have line : ∀ t : State, t.settleLine.line.control = t.line.control := by
    intro t
    simp only [State.settleLine, State.when]
    split <;> simp [State.lineChoice]
  unfold State.settle
  rw [State.settleReset_of_not h]
  constructor
  · simp
  · rw [line]
    obtain ⟨x, hx⟩ := offer s.settleReleaseEnd.settleDrainEnd.settleDelivery.settleLine.settleStation
    refine ⟨x, ?_⟩
    rw [hx]
    simp [line]

end Sys2Proof.Machine
end

