-- ==== Sys2Proof/Laws/Wire.lean ====
section
/-! SUPPORT. Bytes and fields: what is read out of bytes that were put there. -/

namespace Sys2Proof.Machine

/-! ## Numbers and their bytes -/

@[simp] theorem be16_length (x : Word16) : (be16 x).length = 2 := rfl
@[simp] theorem be32_length (x : Word32) : (be32 x).length = 4 := rfl
@[simp] theorem macBytes_length (x : Mac) : (macBytes x).length = 6 := rfl
@[simp] theorem nat16_length (n : Nat) : (nat16 n).length = 2 := rfl
@[simp] theorem le32_length (x : Word32) : (le32 x).length = 4 := rfl
@[simp] theorem fcsBytes_length (l : List Byte) : (fcsBytes l).length = 4 := rfl

@[simp] theorem beNat_be16 (x : Word16) : beNat (be16 x) = x.toNat := by
  simp [be16, beNat, fieldByte, BitVec.extractLsb'_toNat]
  have := x.isLt; omega

@[simp] theorem beNat_be32 (x : Word32) : beNat (be32 x) = x.toNat := by
  simp [be32, beNat, fieldByte, BitVec.extractLsb'_toNat]
  have := x.isLt; omega

@[simp] theorem beNat_macBytes (x : Mac) : beNat (macBytes x) = x.toNat := by
  simp [macBytes, beNat, fieldByte, BitVec.extractLsb'_toNat]
  have := x.isLt; omega

theorem beNat_nat16 {n : Nat} (h : n < 65536) : beNat (nat16 n) = n := by
  simp [nat16, Nat.mod_eq_of_lt h]

theorem byteOf_toNat {n : Nat} (h : n < 256) : (byteOf n).toNat = n := by
  simp [byteOf, Nat.mod_eq_of_lt h]

@[simp] theorem byteOf_byte (b : Byte) : byteOf b.toNat = b := by simp [byteOf]

/-! ## The frame check sequence -/

theorem fcsChecks_closed (l : List Byte) : fcsChecks (closed l) = true := by
  simp [fcsChecks, closed]

theorem closed_length (l : List Byte) : (closed l).length = l.length + 4 := by simp [closed]

theorem padTo_length (n : Nat) (l : List Byte) : (padTo n l).length = max n l.length := by
  simp only [padTo, List.length_append, List.length_replicate]; omega

/-- A closed run of 60 to 1518 bytes passes intake (R112). -/
theorem intakeOk_closed {l : List Byte} (h1 : 60 ≤ l.length) (h2 : l.length ≤ 1518) : intakeOk (closed l) = true := by
  simp only [intakeOk, fcsChecks_closed, closed_length, Config.minFrame, Config.maxFrame, Bool.and_true,
    Bool.and_eq_true, decide_eq_true_eq]
  omega

/-! ## What a cut leaves with the receiver (R83) -/

theorem le32_inj {x y : Word32} : le32 x = le32 y ↔ x = y := by
  refine ⟨fun h => ?_, fun h => h ▸ rfl⟩
  have hb : ∀ z : Word32, beNat (le32 z).reverse = z.toNat := fun z => by
    simp [le32, beNat, fieldByte, BitVec.extractLsb'_toNat]
    have := z.isLt; omega
  exact BitVec.eq_of_toNat_eq (by rw [← hb x, ← hb y, h])

@[simp] theorem wrongFcs_length (p : Port) (k : Nat) (l : List Byte) : (wrongFcs p k l).length = 4 := rfl

@[simp] theorem bytesReceived_completed (p : Port) (k : Nat) (f : Frame) : bytesReceived p k f .completed = f := rfl

/-- An idle port keeps its record. -/
@[simp] theorem sentAfter_idle (p : Port) (log : SentLog) (how : TxEnd) : sentAfter p log none how = log := rfl

/-- The bytes that close a cut are not the FCS of what was sent. -/
theorem wrongFcs_ne (p : Port) (k : Nat) (l : List Byte) : wrongFcs p k l ≠ fcsBytes l := by
  rw [wrongFcs, fcsBytes, Ne, le32_inj]
  split
  · next h => rw [h]; exact fun e => by simpa using congrArg (fun z : Word32 => z.getLsbD 0) e
  · next h => exact h

/-- What had left a port at an early end is less than the frame. -/
theorem bytesSent_eq_take (p : Port) (k : Nat) {f : Frame} (h : f ≠ []) :
    ∃ n, n < f.length ∧ bytesSent p k f = f.take n :=
  ⟨_, Nat.mod_lt _ (List.length_pos_iff.mpr h), rfl⟩

/-- A run closed with four bytes that are not its FCS fails intake (R112). -/
theorem intakeOk_badly_closed {l w : List Byte} (hw : w.length = 4) (h : w ≠ fcsBytes l) :
    intakeOk (l ++ w) = false := by
  simp [intakeOk, fcsChecks, hw, h]

/-! ## The command's frame -/

/-- The 24 bytes of a command's header (R126). -/
def commandHeader (dst : Mac) (h : CmdHeader) (k : Cmd) (n : Nat) : List Byte :=
  macBytes dst ++ macBytes h.source ++ be16 Config.controlType ++ [1, 1, k.code, 0] ++ be16 h.seq ++ be16 h.tag ++
    nat16 n

/-- A command's frame is its header, its parameters, and bytes that nothing examines. -/
theorem commandFrame_eq (dst : Mac) (h : CmdHeader) (k : Cmd) (ps : List Byte) :
    ∃ rest, commandFrame dst h k ps = commandHeader dst h k ps.length ++ ps ++ rest := by
  refine ⟨List.replicate (60 - (commandHeader dst h k ps.length ++ ps).length) 0 ++
    fcsBytes (padTo 60 (commandHeader dst h k ps.length ++ ps)), ?_⟩
  simp [commandFrame, closed, padTo, commandHeader, List.append_assoc]

theorem commandFrame_length (dst : Mac) (h : CmdHeader) (k : Cmd) (ps : List Byte) :
    (commandFrame dst h k ps).length = ctlFrameLength ps.length := by
  simp only [commandFrame, closed_length, padTo_length, ctlFrameLength, Config.minFrame]
  simp
  omega

/-- The fields that the part reads out of a command's frame. -/
theorem commandFrame_fields (dst : Mac) (h : CmdHeader) (k : Cmd) (ps : List Byte) (hl : ps.length < 65536) :
    macAt (commandFrame dst h k ps) 0 = dst ∧ macAt (commandFrame dst h k ps) 6 = h.source ∧
      word16At (commandFrame dst h k ps) 12 = Config.controlType ∧ byteAt (commandFrame dst h k ps) 14 = 1 ∧
      byteAt (commandFrame dst h k ps) 15 = 1 ∧ byteAt (commandFrame dst h k ps) 16 = k.code ∧
      word16At (commandFrame dst h k ps) 18 = h.seq ∧ word16At (commandFrame dst h k ps) 20 = h.tag ∧
      natAt (commandFrame dst h k ps) 22 2 = ps.length ∧
      ((commandFrame dst h k ps).drop 24).take ps.length = ps := by
  obtain ⟨rest, e⟩ := commandFrame_eq dst h k ps
  rw [e]
  refine ⟨?_, ?_, ?_, rfl, rfl, rfl, ?_, ?_, ?_, ?_⟩
  · show BitVec.ofNat 48 (beNat (macBytes dst)) = dst; simp
  · show BitVec.ofNat 48 (beNat (macBytes h.source)) = h.source; simp
  · show BitVec.ofNat 16 (beNat (be16 Config.controlType)) = Config.controlType; simp
  · show BitVec.ofNat 16 (beNat (be16 h.seq)) = h.seq; simp
  · show BitVec.ofNat 16 (beNat (be16 h.tag)) = h.tag; simp
  · show beNat (nat16 ps.length) = ps.length; exact beNat_nat16 hl
  · show (ps ++ rest).take ps.length = ps; simp

/-- What the control responder reads from a command's frame is the command (R126). -/
theorem Ctl.ofFrame_commandFrame (dst : Mac) (h : CmdHeader) (k : Cmd) (ps : List Byte) (hl : ps.length < 65536) :
    Ctl.ofFrame h.port (commandFrame dst h k ps) = Ctl.ofCommand h k ps := by
  obtain ⟨_, f2, _, f4, f5, f6, f7, f8, f9, f10⟩ := commandFrame_fields dst h k ps hl
  simp only [Ctl.ofFrame, Ctl.ofCommand, f2, f4, f5, f6, f7, f8, f9, f10, commandFrame_length]

/-- A command's frame that fits passes intake. -/
theorem commandFrame_intake (dst : Mac) (h : CmdHeader) (k : Cmd) (ps : List Byte) (hl : 24 + ps.length + 4 ≤ 1522) :
    intakeOk (commandFrame dst h k ps) = true := by
  apply intakeOk_closed
  · rw [padTo_length]; omega
  · rw [padTo_length]; simp; omega

end Sys2Proof.Machine
end

