-- ==== Sys2Proof/Laws/Answer.lean ====
section
/-! SUPPORT. What an event leaves when its owner changed one block alone: the settled forms of the responses,
    of traffic, and of the resets. -/

namespace Sys2Proof.Machine

/-! ## Where settling does nothing -/

/-- No release ends outside RELEASING. -/
theorem State.settleReleaseEnd_of_ne {s : State} (h : s.ctx.station ≠ .releasing) : s.settleReleaseEnd = s :=
  State.settleReleaseEnd_of_not (by simp [State.releaseEndDue, h])

/-- No delivery begins outside RELEASING. -/
theorem State.settleDelivery_of_ne {s : State} (h : s.ctx.station ≠ .releasing) : s.settleDelivery = s :=
  State.settleDelivery_of_not (by simp [State.deliveryDue, h])

/-- Removing HELD descriptors from a settled state makes nothing due but the end of a release. -/
theorem State.due_of_removed {s u : State} (hn : s.nothingDue = true) (h1 : u.ctx = s.ctx) (h2 : u.transit = s.transit)
   (h3 : u.delivering = s.delivering) (h4 : u.releaseTimer = s.releaseTimer) (h5 : s.hold.list = []
       → u.hold.list = []) :
   u.drainEndDue = false ∧ u.deliveryDue = false := by
  obtain ⟨d1, d2, d3, d4, d5, d6, d7⟩ := (State.nothingDue_iff s).1 hn
  refine ⟨?_, ?_⟩
  · rw [← d3]; simp only [State.drainEndDue, State.drained, h1, h2, h3]
  · rw [← Bool.not_eq_true] at d4 ⊢
    intro h; apply d4
    simp only [State.deliveryDue, h1, h2, h3, h4, Bool.and_eq_true, Bool.not_eq_true'] at h ⊢
    refine ⟨⟨h.1.1, ?_⟩, h.2⟩
    cases hl : s.hold.list with
    | nil => have := h5 hl; rw [this] at h; simp at h
    | cons a b => rfl

/-- A change of counters alone leaves a settled state settled. -/
theorem State.settle_of_counted {s t : State} (hn : s.nothingDue = true) (h1 : t.ctx = s.ctx) (h2 : t.hold = s.hold)
    (h3 : t.transit = s.transit)
    (h4 : t.releaseTimer = s.releaseTimer) (h5 : t.responder = s.responder) (h6 : t.answers = s.answers)
        (h7 : t.notices = s.notices)
    (l1 : t.line.control = s.line.control) (l2 : t.line.tx = s.line.tx) (l3 : t.line.linkUp = s.line.linkUp)
    (m1 : t.station.control = s.station.control) (m2 : t.station.tx = s.station.tx)
        (m3 : t.station.linkUp = s.station.linkUp) :
    t.settle = t := by
  apply State.settle_of_nothingDue
  rw [← hn]
  exact State.nothingDue_congr (by rw [h1]) (by rw [h2]) h3 (by rw [h4]) (by rw [h5]) (by rw [h5]) l1 l2 l3 m1 m2 m3
      (by rw [h6]) (by rw [h7]) (by rw [h7])

/-- After an event that changed the context and the notices alone, settling is the offer and the line choice. -/
theorem State.settle_of_raised {s u : State} (hn : s.nothingDue = true) (h1 : u.line = s.line)
    (h2 : u.station = s.station) (h3 : u.transit = s.transit)
   (h4 : u.answers = s.answers) (h5 : u.responder = s.responder) (h6 : u.hold = s.hold)
   (h7 : u.releaseEndDue = false) (h8 : u.drainEndDue = false)
       (h9 : u.deliveryDue = false) : u.settle = u.settleOffer.settleLine := by
  obtain ⟨d1, d2, d3, d4, d5, d6, d7⟩ := (State.nothingDue_iff s).1 hn
  apply State.settle_of_offer _ h7 h8 h9
  · rw [← d5]; simp only [State.lineChoiceDue, h1, h3, h4]
  · rw [← d6]; simp only [State.stationChoiceDue, h2, h3, State.delivering, h6]
  · rw [← d1]; simp only [State.resetDue, h1, h5]

/-! ## Management commands -/

/-- The settled form of a response whose owner changed the hold store. -/
theorem State.executed_setHold {s u : State} {h : CmdHeader} {k : Cmd} {b : Binding} {x body} (H : HoldStore)
    (e : u = (s.heard .line).setHold H) :
   (u.setLine (s.withReply .line (s.reply h k x body)).line).setBinding (some (b.accept (s.reply h k x body))) =
       (s.executed h k b x body).setHold H := by
  rw [e]; ext <;> simp [State.executed, State.withReply, State.setBinding, State.heard]

/-- The settled form of a response whose owner changed the classifier. -/
theorem State.executed_setRules {s : State} {h k b x body} (R : Classifier) :
   ((((s.heard .line).setRules R).setLine (s.withReply .line (s.reply h k x body)).line).setBinding (some (b.accept
       (s.reply h k x body)))) = (s.executed h k b x body).setRules R := by
  ext <;> simp [State.executed, State.withReply, State.setBinding, State.heard]

/-- The settled form of a response whose owner changed the context. -/
theorem State.executed_setCtx {s : State} {h k b x body} (R : Context) :
   ((((s.heard .line).setCtx R).setLine (s.withReply .line (s.reply h k x body)).line).setBinding (some (b.accept
       (s.reply h k x body)))) = (s.executed h k b x body).setCtx R := by
  ext <;> simp [State.executed, State.withReply, State.setBinding, State.heard]

/-- The settled form of a response whose owner changed the answer generator. -/
theorem State.executed_setAnswers {s : State} {h k b x body} (R : AnswerGen) :
   ((((s.heard .line).setAnswers R).setLine (s.withReply .line (s.reply h k x body)).line).setBinding (some (b.accept
       (s.reply h k x body)))) = (s.executed h k b x body).setAnswers R := by
  ext <;> simp [State.executed, State.withReply, State.setBinding, State.heard]

/-- The settled form of a response whose owner changed the notice unit. -/
theorem State.executed_setNotices {s : State} {h k b x body} (R : NoticeUnit) :
   ((((s.heard .line).setNotices R).setLine (s.withReply .line (s.reply h k x body)).line).setBinding (some (b.accept
       (s.reply h k x body)))) = (s.executed h k b x body).setNotices R := by
  ext <;> simp [State.executed, State.withReply, State.setBinding, State.heard]

/-- A bound-only command whose owner removes HELD descriptors. -/
theorem exec_owned_hold {i : Instr} {s : State} {h : CmdHeader} {k : Cmd} {ps : List Byte} {b : Binding} {x : Status}
    {body : List Byte} {H : HoldStore} (hi : i.asCommand = some (h, k, ps)) (hs : s.Settled) (hx : s.Executes h b)
    (hb : k.boundOnly = true) (hk : k ≠ .unbind) (hl : k.lengthOk ps.length = true)
    (ho : k.own (Ctl.ofCommand h k ps) (s.heard .line) = { state := (s.heard .line).setHold H, status := x, body := body })
    (sel : Descriptor → Bool) (hsel : ∀ d ∈ s.hold.list, sel d = true → d.isHeld = true)
    (hH : H.list = s.hold.list.filter fun d => !sel d) :
    exec i s = .next ((s.executed h k b x body).setHold H).settleReleaseEnd.settleOffer := by
  have hd : ((s.heard .line).setHold H).delivering = s.delivering := by
    simp only [State.delivering, State.setHold, hH]
    exact find_delivering_filter hsel
  have hr := State.due_of_removed (u := (s.heard .line).setHold H) (hs hx.high) rfl rfl hd rfl
      (by intro e; simp only [State.setHold, hH, e]; rfl)
  rw [exec_owned (u := (s.heard .line).setHold H) hi hs hx hb hk hl ho rfl rfl rfl rfl hd hr.1 hr.2,
      State.executed_setHold _ rfl]

/-- A bound-only command whose owner makes nothing due. -/
theorem exec_owned_quiet {i : Instr} {s u : State} {h : CmdHeader} {k : Cmd} {ps : List Byte} {b : Binding} {x : Status}
    {body : List Byte} (hi : i.asCommand = some (h, k, ps)) (hs : s.Settled) (hx : s.Executes h b)
    (hb : k.boundOnly = true) (hk : k ≠ .unbind) (hl : k.lengthOk ps.length = true)
    (ho : k.own (Ctl.ofCommand h k ps) (s.heard .line) = { state := u, status := x, body := body })
    (h1 : u.line = (s.heard .line).line) (h2 : u.responder = s.responder) (h3 : u.station = s.station)
    (h4 : u.transit = s.transit) (h5 : u.hold = s.hold) (h6 : u.ctx.station = s.ctx.station)
        (h7 : u.releaseTimer = s.releaseTimer)
    (h8 : u.notices = s.notices) :
    exec i s = .next ((u.setLine (s.withReply .line (s.reply h k x body)).line).setBinding (some (b.accept
        (s.reply h k x body)))) := by
  have hn := hs hx.high
  obtain ⟨d1, d2, d3, d4, d5, d6, d7⟩ := (State.nothingDue_iff s).1 hn
  have hr : s.line.control.length < 4 := by have := hx.room; rw [hx.port] at this; exact this
  rw [exec_owned (u := u) hi hs hx hb hk hl ho h1 h2 h3 h4 (by simp [State.delivering, h5])
    (by rw [← d3]; simp only [State.drainEndDue, State.drained, State.delivering, h4, h5, h6])
    (by rw [← d4]; simp only [State.deliveryDue, State.delivering, h4, h5, h6, h7])]
  rw [State.settleReleaseEnd_of_not, State.settleOffer_of_not]
  · exact State.offerDue_of_room d7 hr h8 (by intro _; rw [hx.binding]; rfl)
  · rw [← d2]; 
    show (u.ctx.station == .releasing && u.hold.list.isEmpty) = _
    rw [h5, h6]; rfl

/-! ## Station commands -/

/-- A station command that is executed. -/
theorem exec_station {i : Instr} {s : State} {h : CmdHeader} {k : Cmd} {ps : List Byte}
    (hi : i.asCommand = some (h, k, ps)) (hx : s.Serves h) (hp : k.permitted .station = true)
        (hb : k.boundOnly = false) (hk : k ≠ .bind) (hl : k.lengthOk ps.length = true) :
    exec i s = .next (((k.own (Ctl.ofCommand h k ps) (s.heard .station)).state.place .station
       ((k.own (Ctl.ofCommand h k ps) (s.heard .station)).state.reply h k (k.own (Ctl.ofCommand h k ps)
           (s.heard .station)).status (k.own (Ctl.ofCommand h k ps) (s.heard .station)).body)).settle) := by
  have := Cmd.lengthOk_le hl
  rw [exec_judged hi hx.toJudges (by omega), State.judge_command, hx.port]
  simp only [hl, hp, hb, hk, (by omega : ps.length ≤ 1024), and_self, if_true, if_false, State.judgeFree,
      State.answer_ofCommand, Bool.false_eq_true, hx.port]

/-- A station command that is refused. -/
theorem exec_station_refusal {i : Instr} {s : State} {h : CmdHeader} {k : Cmd} {ps : List Byte} {x : Status}
    {body : List Byte}
    (hi : i.asCommand = some (h, k, ps)) (hs : s.Settled) (hx : s.Serves h) (hp : k.permitted .station = true)
        (hb : k.boundOnly = false) (hk : k ≠ .bind) (hl : k.lengthOk ps.length = true)
    (ho : k.own (Ctl.ofCommand h k ps) (s.heard .station) = { state := s.heard .station, status := x, body := body }) :
    exec i s = .next (s.withReply .station (s.reply h k x body)) := by
  have hu : s.linkUp .station = true := by have := hx.up; rw [hx.port] at this; exact this
  have hr : (s.controlQueue .station).length < controlCap .station :=
      by have := hx.room; rw [hx.port] at this; exact this
  rw [exec_station hi hx hp hb hk hl, ho]
  simp only [State.heard_reply]
  rw [State.settle_placed .station _ (hs hx.high) hu hx.noReset hr]

/-- A station command whose owner moved the station. -/
theorem exec_station_moved {i : Instr} {s u : State} {h : CmdHeader} {k : Cmd} {ps : List Byte} {body : List Byte}
    (hi : i.asCommand = some (h, k, ps)) (hs : s.Settled) (hx : s.Serves h) (hp : k.permitted .station = true)
        (hb : k.boundOnly = false) (hk : k ≠ .bind) (hl : k.lengthOk ps.length = true)
    (ho : k.own (Ctl.ofCommand h k ps) (s.heard .station) = { state := u, status := .ok, body := body })
    (h1 : u.station = (s.heard .station).station) (h2 : u.line = s.line) (h3 : u.responder = s.responder)
        (h4 : u.answers = s.answers) (h5 : u.transit = s.transit)
    (h6 : u.unitStraps = s.unitStraps)
    (h7 : u.releaseEndDue = false) (h8 : u.drainEndDue = false) :
    exec i s = .next (u.setStation (s.withReply .station
        (s.reply h k .ok body)).station).settleDelivery.settleOffer.settleLine := by
  have hu : s.station.linkUp = true := by have := hx.up; rw [hx.port] at this; exact this
  obtain ⟨d1, d2, d3, d4, d5, d6, d7⟩ := (State.nothingDue_iff s).1 (hs hx.high)
  have hrep : u.reply h k .ok body = s.reply h k .ok body := by simp [State.reply, State.unitAddress, h6]
  rw [exec_station hi hx hp hb hk hl, ho]
  simp only [hrep]
  refine congrArg _ ?_
  generalize s.reply h k .ok body = r
  generalize hw : u.place .station r = w
  have w1 : w.resetDue = false := by rw [← d1, ← hw]; simp [State.resetDue, State.place, h2, h3]
  have w2 : w.releaseEndDue = false := by rw [← hw]; exact h7
  have w3 : w.drainEndDue = false := by rw [← hw]; exact h8
  rw [State.settle, State.settleReset_of_not w1, State.settleReleaseEnd_of_not w2, State.settleDrainEnd_of_not w3]
  have wl : w.settleDelivery.settleLine = w.settleDelivery := by
    apply State.settleLine_of_not
    rw [← d5]
    simp only [State.settleDelivery, State.when]
    split <;> (rw [← hw]; simp [State.lineChoiceDue, State.place, h2, h4, h5])
  rw [wl]
  have ws : w.settleDelivery.settleStation = (u.setStation (s.withReply .station r).station).settleDelivery := by
    have e : w.station = { s.station with rx := none, control := s.station.control ++ [r], counters := s.station.counters.consumed } := by
      rw [← hw]; simp [State.place, h1, State.heard]
    have e2 : ∀ x, (w.setStation x).settleDelivery = w.settleDelivery.setStation x := by
      intro x
      simp only [State.settleDelivery, State.when]
      have : (w.setStation x).deliveryDue = w.deliveryDue := rfl
      rw [this]; split <;> rfl
    have e3 : u.setStation (s.withReply .station r).station = w.setStation
        (s.withReply .station r).station := by rw [← hw]; rfl
    have e4 : w.settleDelivery.station = w.station := by simp
    rw [e3, e2]
    cases ht : s.station.tx with
    | none =>
      have hq : s.station.control = [] := State.stationIdle d6 hu ht
      rw [State.settleStation_of_due (by simp [State.stationChoiceDue, e, ht, hu])]
      simp [State.stationChoice, State.withReply, e, ht, hq]
    | some x =>
      rw [State.settleStation_of_not (by simp [State.stationChoiceDue, e, ht])]
      ext <;> simp [e, State.withReply, ht]
  rw [ws]

/-! ## Traffic -/

/-- The reception of traffic, counted. -/
theorem State.takenIn_eq (s : State) (p : Port) : (s.setRx p none).countReceived p = s.takenIn p := by cases p <;> rfl

/-- Traffic that arrives on the line. -/
theorem exec_lineTraffic {s : State} {f : Frame} (hr : s.Receives .line) (hok : intakeOk f = true)
    (hc : s.isControl f = false) :
    exec (.lineFrameReceived f) s = .next ((s.takenIn .line).lineTraffic f).settle := by
  have hu : (s.setRx .line none).isControl f = false := by
    have : (s.setRx .line none).unitAddress = s.unitAddress := by simp [State.unitAddress]
    simpa only [State.isControl, this] using hc
  simp only [exec, execLineFrameReceived]
  rw [State.event_high _ hr.high]
  have hup : s.linkUp .line = true := hr.up
  simp only [State.receive, hup, if_true, State.intake, hok, Bool.not_true, Bool.false_eq_true, if_false, hu,
      State.traffic, State.takenIn_eq]

/-- Traffic that arrives from the station. -/
theorem exec_stationTraffic {s : State} {f : Frame} (hr : s.Receives .station) (hok : intakeOk f = true)
    (hc : s.isControl f = false) :
    exec (.stationFrameReceived f) s = .next ((s.takenIn .station).joinToLine f).settle := by
  have hu : (s.setRx .station none).isControl f = false := by
    have : (s.setRx .station none).unitAddress = s.unitAddress := by simp [State.unitAddress]
    simpa only [State.isControl, this] using hc
  simp only [exec, execStationFrameReceived]
  rw [State.event_high _ hr.high]
  have hup : s.linkUp .station = true := hr.up
  simp only [State.receive, hup, if_true, State.intake, hok, Bool.not_true, Bool.false_eq_true, if_false, hu,
      State.traffic, State.takenIn_eq]

/-! ## Resets -/

/-- The response a pending reset waits for. -/
theorem CtlFrame.isResetResponse_iff (c : CtlFrame) : c.isResetResponse = true ↔ c.kind = 2 ∧ c.code = 0x7F
    ∧ c.status = 0 := by
  simp only [CtlFrame.isResetResponse, Bool.and_eq_true, beq_iff_eq, and_assoc]; rfl

/-- What settling does after a WARM reset. -/
theorem State.warmReset_settle (u : State) : u.warmReset.settle = u.warmReset.settleOffer.settleLine := by
  have hp : ∀ v : State, v.ctx.station = .awake → v.hold.list = [] → v.line.control = [] → v.answers.queue = []
      → v.transit = Transit.empty → v.station.control = [] →
     v.responder.resetPending = none → v.settle = v.settleOffer.settleLine := by
    intro v h1 h2 h3 h4 h5 h6 h7
    apply State.settle_of_offer
    · simp [State.resetDue, h7]
    · simp [State.releaseEndDue, h1]
    · simp [State.drainEndDue, h1]
    · simp [State.deliveryDue, h1]
    · simp [State.lineChoiceDue, h3, h4, h5, Transit.empty]
    · simp [State.stationChoiceDue, State.delivering, h2, h5, h6, Transit.empty]
  have hl : (u.hold.remove (fun _ => true) .purged).list = [] := by rw [(HoldStore.remove_parts ..).1]; simp
  unfold State.warmReset
  split
  · apply hp <;> simp [State.warmClear, Context.initial, hl]
  · apply hp <;> simp [State.warmClear, Context.initial, hl]

/-- A COLD reset leaves nothing due. -/
theorem State.coldReset_settle (u : State) : u.coldReset.settle = u.coldReset := by
  apply State.settle_of_nothingDue
  rw [State.nothingDue_iff]
  refine ⟨rfl, rfl, rfl, rfl, ?_, ?_, rfl⟩
  · simp [State.lineChoiceDue, State.coldReset, State.blocksReset, LinePort.initial, AnswerGen.initial, Transit.empty]
  · simp [State.stationChoiceDue, State.coldReset, State.blocksReset, StationPort.initial, Transit.empty,
        State.delivering, HoldStore.initial]

/-- Settling where a reset is due. -/
theorem State.settle_of_resetDue {s : State} (h : s.resetDue = true) : s.settle = s.takeReset.settle := by
  have h2 : s.settleReset = s.takeReset := State.settleReset_of_due h
  have h3 : s.takeReset.settleReset = s.takeReset := State.settleReset_of_not
      (by rw [← h2]; exact State.settleReset_resetDue s)
  simp only [State.settle, h2, h3]

end Sys2Proof.Machine
end

