-- ==== Sys2Proof/Laws/Notices.lean ====
section
/-! SUPPORT. The laws of the notice queue, kept by each operation of the notice unit. -/

namespace Sys2Proof.Machine

/-- The laws of the notice queue, for a part that is bound or not (R167, R168, R170, R173). -/
structure NoticeUnit.Laws (u : NoticeUnit) (bound : Bool) : Prop where
  size : u.queue.length ≤ 8
  serials : ∀ (i : Nat) (n : Notice), u.queue[i]? = some n → n.serial + BitVec.ofNat 16 (u.queue.length - i) = u.serial
  waiting : ∀ n ∈ u.queue.tail, n.transmissions = 0
  spent : ∀ n ∈ u.queue, n.transmissions ≤ 4
  bound : ∀ n ∈ u.queue, n.transmissions ≠ 0 → bound = true
  running : u.timer ≠ .stopped → ∃ n rest, u.queue = n :: rest ∧ 1 ≤ n.transmissions

/-- The laws of a state are those of its notice unit. -/
theorem State.noticeLaws_iff (s : State) : s.NoticeLaws ↔ s.notices.Laws s.responder.binding.isSome :=
  ⟨fun h => ⟨h.1, h.2, h.3, h.4, h.5, h.6⟩, fun h => ⟨h.1, h.2, h.3, h.4, h.5, h.6⟩⟩

/-- A binding forbids nothing. -/
theorem NoticeUnit.Laws.bindOk {u : NoticeUnit} {b : Bool}
    (h : u.Laws b) : u.Laws true := ⟨h.1, h.2, h.3, h.4, fun _ _ _ => rfl, h.6⟩

/-- A new record, or a lost one. -/
theorem NoticeUnit.Laws.join {u : NoticeUnit} {b : Bool} (h : u.Laws b) (body now st) :
    (u.join body now st).Laws b := by
  unfold NoticeUnit.join; split
  · exact ⟨h.1, h.2, h.3, h.4, h.5, h.6⟩
  · next hc =>
    simp [Config.noticeCap] at hc
    refine ⟨by simp; omega, ?_, ?_, ?_, ?_, ?_⟩
    · intro i n hi
      simp only [List.length_append, List.length_singleton] at hi ⊢
      by_cases hlt : i < u.queue.length
      · rw [List.getElem?_append_left hlt] at hi
        rw [← h.2 i n hi, show u.queue.length + 1 - i = (u.queue.length - i) + 1 by omega, BitVec.ofNat_add]
        exact (BitVec.add_assoc _ _ _).symm
      · rw [List.getElem?_append_right (by omega)] at hi
        have : i - u.queue.length = 0 := by
          by_contra hne
          rw [List.getElem?_eq_none (by simp; omega)] at hi; simp at hi
        rw [this] at hi; simp at hi; subst hi
        show u.serial + _ = u.serial + 1
        have : u.queue.length + 1 - i = 1 := by omega
        rw [this]; rfl
    · intro n hn
      cases hq : u.queue with
      | nil => simp [hq] at hn
      | cons a l =>
        simp [hq] at hn
        rcases hn with hn | rfl
        · exact h.3 n (by simp [hq, hn])
        · rfl
    · intro n hn; simp at hn; rcases hn with hn | rfl
      · exact h.4 n hn
      · simp
    · intro n hn; simp at hn; rcases hn with hn | rfl
      · exact h.5 n hn
      · simp
    · intro ht
      obtain ⟨n, r, e, f⟩ := h.6 ht
      exact ⟨n, r ++ _, by simp [e]; rfl, f⟩

/-- Coalescing changes neither serials nor transmissions. -/
theorem coalesceIn_get (c r e) : ∀ (l : List Notice) (i : Nat) (n : Notice), (coalesceIn c r e l)[i]? = some n
    → ∃ m, l[i]? = some m ∧ m.serial = n.serial ∧ m.transmissions = n.transmissions
  | [], i, n, h => by simp [coalesceIn] at h
  | a :: l, i, n, h => by
    simp only [coalesceIn] at h
    split at h
    · cases i with
      | zero =>
        simp at h; subst h
        refine ⟨a, rfl, ?_, ?_⟩ <;> (unfold Notice.addCounts; split <;> rfl)
      | succ j => exact ⟨n, by simpa using h, rfl, rfl⟩
    · cases i with
      | zero => simp at h; subst h; exact ⟨a, rfl, rfl, rfl⟩
      | succ j => simp at h; simpa using coalesceIn_get c r e l j n h

/-- Coalescing keeps the length. -/
theorem coalesceIn_len (c r e) : ∀ l : List Notice, (coalesceIn c r e l).length = l.length
  | [] => rfl
  | a :: l => by simp only [coalesceIn]; split <;> simp [coalesceIn_len c r e l]

/-- Coalescing keeps the laws. -/
theorem NoticeUnit.Laws.coalesce {u : NoticeUnit} {b : Bool} (h : u.Laws b)
    (c r e) : NoticeUnit.Laws { u with queue := coalesceIn c r e u.queue } b := by
  have mem : ∀ n ∈ coalesceIn c r e u.queue, ∃ m ∈ u.queue, m.transmissions = n.transmissions := by
    intro n hn
    obtain ⟨i, hi⟩ := List.mem_iff_getElem?.1 hn
    obtain ⟨m, h1, _, h2⟩ := coalesceIn_get _ _ _ _ _ _ hi
    exact ⟨m, List.mem_iff_getElem?.2 ⟨i, h1⟩, h2⟩
  refine ⟨by simpa [coalesceIn_len] using h.1, ?_, ?_, ?_, ?_, ?_⟩
  · intro i n hi
    obtain ⟨m, h1, h2, -⟩ := coalesceIn_get _ _ _ _ _ _ hi
    have := h.2 i m h1
    simp only [coalesceIn_len]; rw [← h2]; exact this
  · intro n hn
    obtain ⟨i, hi⟩ := List.mem_iff_getElem?.1 hn
    simp only [List.getElem?_tail] at hi
    obtain ⟨m, h1, _, h2⟩ := coalesceIn_get _ _ _ _ _ _ hi
    rw [← h2]
    exact h.3 m (List.mem_iff_getElem?.2 ⟨i, by rw [List.getElem?_tail]; exact h1⟩)
  · intro n hn; obtain ⟨m, h1, h2⟩ := mem n hn; rw [← h2]; exact h.4 m h1
  · intro n hn; obtain ⟨m, h1, h2⟩ := mem n hn; rw [← h2]; exact h.5 m h1
  · intro ht
    obtain ⟨n, q, e1, f⟩ := h.6 ht
    simp only [e1, coalesceIn]
    split
    · exact ⟨_, _, rfl, by unfold Notice.addCounts; split <;> exact f⟩
    · exact ⟨_, _, rfl, f⟩

/-- A raise keeps the laws. -/
theorem NoticeUnit.Laws.raise {u : NoticeUnit} {b : Bool} (h : u.Laws b) (body now st) :
    (u.raise body now st).Laws b := by
  unfold NoticeUnit.raise; split
  · split
    · split
      · exact h.coalesce _ _ _
      · exact h.join _ _ _
    · exact h.join _ _ _
  · exact h

/-- The removal of the head keeps the laws. -/
theorem NoticeUnit.Laws.drop {u v : NoticeUnit} {b : Bool} (h : u.Laws b) {n rest} (hq : u.queue = n :: rest)
    (h1 : v.queue = rest) (h2 : v.serial = u.serial) (h3 : v.timer = .stopped) : v.Laws b := by
  have sz := h.1
  rw [hq] at sz
  simp only [List.length_cons] at sz
  refine ⟨by rw [h1]; omega, ?_, ?_, ?_, ?_, by simp [h3]⟩
  · intro i m hi
    rw [h1] at hi ⊢
    have := h.2 (i+1) m (by rw [hq]; simpa using hi)
    rw [hq] at this
    simp only [List.length_cons] at this
    rw [h2, ← this]; congr 2; omega
  · intro m hm; rw [h1] at hm; exact h.3 m (by rw [hq]; exact List.mem_of_mem_tail hm)
  · intro m hm; rw [h1] at hm; exact h.4 m (by rw [hq]; simp [hm])
  · intro m hm; rw [h1] at hm; exact h.5 m (by rw [hq]; simp [hm])

/-- A new count of the head keeps the laws. -/
theorem NoticeUnit.Laws.head {u v : NoticeUnit} {b b' : Bool} (h : u.Laws b) {n rest k} (hq : u.queue = n :: rest)
   (h1 : v.queue = { n with transmissions := k } :: rest) (h2 : v.serial = u.serial) (h3 : k ≤ 4) (h4 : k ≠ 0
       → b' = true) (h5 : v.timer ≠ .stopped → 1 ≤ k) : v.Laws b' := by
  have t0 : ∀ m ∈ rest, m.transmissions = 0 := fun m hm => h.3 m (by rw [hq]; exact hm)
  refine ⟨by have := h.1; rw [hq] at this; rw [h1]; exact this, ?_, ?_, ?_, ?_, fun ht => ⟨_, _, h1, h5 ht⟩⟩
  · intro i m hi
    rw [h1] at hi ⊢
    have e := h.2 i
    rw [hq] at e
    rw [h2]
    cases i with
    | zero => simp at hi; subst hi; exact e n rfl
    | succ j => exact e m (by simpa using hi)
  · intro m hm; rw [h1] at hm; exact t0 m hm
  · intro m hm; rw [h1] at hm; rcases List.mem_cons.1 hm with rfl | hm
    · exact h3
    · rw [t0 m hm]; omega
  · intro m hm; rw [h1] at hm; rcases List.mem_cons.1 hm with rfl | hm
    · exact h4
    · rw [t0 m hm]; simp

/-- The end of a binding keeps the laws. -/
theorem NoticeUnit.Laws.unbound {u : NoticeUnit} {b : Bool} (h : u.Laws b) (b' : Bool) : u.unbound.Laws b' := by
  cases hq : u.queue with
  | nil => unfold NoticeUnit.unbound; rw [hq]; exact ⟨by simp, by simp, by simp, by simp, by simp, by simp⟩
  | cons n rest =>
    exact h.head (k := 0) hq (by simp [NoticeUnit.unbound, hq]) rfl (by omega) (by simp)
      (by simp [NoticeUnit.unbound])

/-- The expiry of the timer keeps the laws. -/
theorem NoticeUnit.Laws.retransmit {u : NoticeUnit} {b : Bool} (h : u.Laws b) : u.retransmit.Laws b := by
  unfold NoticeUnit.retransmit; split
  · exact ⟨h.1, h.2, h.3, h.4, h.5, by simp⟩
  · next n rest hq => split
                      · exact h.drop hq rfl rfl rfl
                      · exact ⟨h.1, h.2, h.3, h.4, h.5, by simp⟩

/-- A new mask keeps the laws. -/
theorem NoticeUnit.Laws.mask {u : NoticeUnit} {b : Bool} (h : u.Laws b)
    (m) : NoticeUnit.Laws { u with mask := m } b := ⟨h.1, h.2, h.3, h.4, h.5, h.6⟩

/-- Coalescing adds to the first record that coalesces. -/
theorem coalesceIn_spec {c : HoldClass} {r e : Word32} : ∀ (before : List Notice) (n : Notice)
    (after : List Notice), n.coalesces c = true → (∀ x ∈ before, x.coalesces c = false) →
   coalesceIn c r e (before ++ n :: after) = before ++ n.addCounts r e :: after := by
  intro before
  induction before with
  | nil => intro n after h _; simp [coalesceIn, h]
  | cons y ys ih => intro n after h hb; simp [coalesceIn, hb y (by simp), ih n after h (fun x hx => hb x (by simp [hx]))]

/-- The records that coalesce. -/
theorem Notice.coalesces_iff {n : Notice} {c : HoldClass} : n.coalesces c = true ↔ n.transmissions = 0
    ∧ ∃ r e, n.body = .holdPressure c r e := by
  unfold Notice.coalesces
  split
  · next c' r e hb => rw [hb]; simp; constructor
                      · rintro ⟨rfl, h⟩; exact ⟨h, rfl⟩
                      · rintro ⟨h, rfl⟩; exact ⟨rfl, h⟩
  · next hb => simp; intro _ r e h; exact hb c r e h

end Sys2Proof.Machine
end

