-- ==== Sys2Proof/Laws/Reading.lean ====
section
/-! SUPPORT. The readers of the fixed layouts: each answers a value exactly when the bytes spell it. -/

namespace Sys2Proof.Machine

/-! ## Bytes and fields -/

/-- A field of one byte. -/
theorem natAt_byte (l : List Byte) (k : Nat) : natAt l k 1 = (byteAt l k).toNat := by
  rw [natAt, byteAt]
  cases l.drop k <;> simp [beNat]

/-- The byte at an offset, 0 beyond the end. -/
theorem byteAt_eq (l : List Byte) (k : Nat) : byteAt l k = (l[k]?).getD 0 := by
  rw [byteAt]
  by_cases h : k < l.length
  · rw [List.drop_eq_getElem_cons h, List.getElem?_eq_getElem h]; rfl
  · rw [List.drop_eq_nil_of_le (by omega), List.getElem?_eq_none (by omega)]; rfl

/-- The byte at an offset behind a cut. -/
theorem byteAt_drop (l : List Byte) (k j : Nat) : byteAt (l.drop k) j = byteAt l (k + j) := by
  rw [byteAt_eq, byteAt_eq, List.getElem?_drop]

/-- The byte at an offset before a cut. -/
theorem byteAt_take {l : List Byte} {k j : Nat} (h : j < k) : byteAt (l.take k) j = byteAt l j := by
  rw [byteAt_eq, byteAt_eq, List.getElem?_take_of_lt h]

/-- The field at an offset behind a cut. -/
theorem natAt_drop (l : List Byte) (k j n : Nat) : natAt (l.drop k) j n = natAt l (k + j) n := by
  simp only [natAt, List.drop_drop]

/-- The field at an offset before a cut. -/
theorem natAt_take {l : List Byte} {k j n : Nat} (h : j + n ≤ k) : natAt (l.take k) j n = natAt l j n := by
  simp only [natAt, List.drop_take, List.take_take]
  congr 2; omega

/-- The first field after a 16-bit value was written. -/
theorem natAt_be16 (x : Word16) (r : List Byte) : natAt (be16 x ++ r) 0 2 = x.toNat := by
  show beNat (be16 x) = _; simp

/-! ## Enumerations and ranges -/

/-- An index is read when it is below the bound. -/
theorem readFin_some {n : Nat} {b : Byte} {x : Fin n} : readFin n b = some x ↔ b.toNat = x.val := by
  unfold readFin
  split
  · next h => constructor
              · intro e; cases e; rfl
              · intro e; congr 1; exact Fin.ext e
  · next h => constructor
              · intro e; cases e
              · intro e; exact absurd (e ▸ x.isLt) h

/-- A flag byte is read when it is 0 or 1. -/
theorem readBool_some {b : Byte} {x : Bool} : readBool b = some x ↔ b = boolByte x := by
  unfold readBool
  split
  · next h => subst h; cases x <;> simp [boolByte]
  · next h => split
              · next h2 => subst h2; cases x <;> simp [boolByte]
              · next h2 => cases x <;> simp [boolByte] <;> assumption

/-- A number is read when it is in range. -/
theorem readNat_some {p : Nat → Bool} {n m : Nat} : readNat p n = some m ↔ p n = true ∧ n = m := by
  unfold readNat; split <;> simp_all

/-- A set mask is read when its high half is 0. -/
theorem readSets_some {b : Byte} {x : BitVec 4} : readSets b = some x ↔ b = x.setWidth 8 := by
  unfold readSets
  split
  · next h => constructor
              · intro e; cases e; apply BitVec.eq_of_toNat_eq; simp; omega
              · intro e; congr 1; rw [e]; apply BitVec.eq_of_toNat_eq; have := x.isLt; simp
  · next h => constructor
              · intro e; cases e
              · intro e; rw [e] at h; have := x.isLt; simp at h; omega

/-- A guard is read from its code alone. -/
theorem Guard.ofCode_some {b : Byte} {g : Guard} : Guard.ofCode b = some g ↔ b = g.code := by
  unfold Guard.ofCode
  constructor
  · intro h
    split at h; · cases h; assumption
    split at h; · cases h; assumption
    split at h; · cases h; assumption
    split at h; · cases h; assumption
    split at h; · cases h; assumption
    cases h
  · rintro rfl; cases g <;> rfl

/-- A disposition is read from its code and the index it uses. -/
theorem readDisposition_some {a b c : Byte} {d : Disposition} : readDisposition a b c = some d ↔
   (match d with
        | .discard => a = 0
        | .hold k => a = 1 ∧ b.toNat = k.val
        | .answer t => a = 2 ∧ c.toNat = t.val
        | .answerHold t k => a = 3 ∧ c.toNat = t.val ∧ b.toNat = k.val) := by
  unfold readDisposition
  split
  · next h => subst h; cases d <;> simp
  split
  · next _ h => subst h; cases d <;> simp [readFin_some]
  split
  · next _ h => subst h; cases d <;> simp [readFin_some]
  split
  · next _ h => subst h; cases d <;> simp [readFin_some, Option.bind_eq_some_iff]
  · next h0 h1 h2 h3 =>
      have h0 : ¬ a = 0#8 := h0
      have h1 : ¬ a = 1#8 := h1
      have h2 : ¬ a = 2#8 := h2
      have h3 : ¬ a = 3#8 := h3
      cases d <;> simp [h0, h1, h2, h3]

/-- A test is read from its mode, with the length of its list. -/
theorem readTest_some {a : Byte} {e : Word16} {l : List Byte} {fl : List Bool}
    {t : RuleTest} : readTest a e l fl = some t ↔
   (match t with
        | .signature x => a = 0 ∧ e = x
        | .exactly bytes => a = 1 ∧ l = bytes) ∧ (∀ bytes, t = .exactly bytes → selectedCount fl ≤ 16
            ∧ bytes.length = selectedCount fl) := by
  unfold readTest
  split
  · next h => subst h; cases t <;> simp
  · next h0 =>
    have h0 : ¬ a = 0#8 := h0
    split
    · next h1 => subst h1
                 split
                 · next h => cases t <;> simp; rintro rfl; exact h
                 · next h => cases t <;> simp; rintro rfl h1 h2; exact h ⟨h1, h2⟩
    · next h1 => have h1 : ¬ a = 1#8 := h1; cases t <;> simp [h0, h1]

/-- A record is given unless the flag turns it down. -/
theorem recordOrNone_some {x : Bool} {r r' : RuleRecord} : recordOrNone x r = some r' ↔ x = false ∧ r = r' := by
  unfold recordOrNone; cases x <;> simp

/-- A class is read from its code. -/
theorem HoldClass.ofCode_code (c : HoldClass) : HoldClass.ofCode c.code = some c := by cases c <;> rfl

/-- No class has a code of 5 or more. -/
theorem HoldClass.ofCode_none {b : Byte} (h : 5 ≤ b.toNat) : HoldClass.ofCode b = none := by
  have : ∀ n, n < 5 → b ≠ BitVec.ofNat 8 n := by
    intro n hn he; rw [he] at h; simp at h; omega
  have h0 := this 0 (by omega); have h1 := this 1 (by omega); have h2 := this 2 (by omega)
  have h3 := this 3 (by omega); have h4 := this 4 (by omega)
  simp only [HoldClass.ofCode]
  exact (if_neg h0).trans ((if_neg h1).trans ((if_neg h2).trans ((if_neg h3).trans (if_neg h4))))

/-- A profile index below 4 is read. -/
theorem fin_read {i : Fin 4} {b : Byte} (h : b.toNat = i.val) : readFin 4 b = some i := by
  unfold readFin; rw [dif_pos (by omega)]; congr 1; exact Fin.ext h

/-! ## The mask of a rule record -/

/-- The flag of window byte k is bit 7 - k mod 8 of mask byte k / 8. -/
theorem maskFlags_get (l : List Byte) (n k : Nat) (h : k < n) (h64 : k < 64) : (maskFlags
    ((l.drop 8).take 8) n)[k]? = some ((byteAt l (8 + k / 8)).getLsbD (7 - k % 8)) := by
  simp only [maskFlags, List.getElem?_map, List.getElem?_range h, Option.map_some, maskFlag]
  rw [byteAt_take (by omega), byteAt_drop]

/-- The flags of one mask byte. -/
theorem maskBits : ∀ f0 f1 f2 f3 f4 f5 f6 f7 : Bool, ∀ j : Fin 8,
   ((List.range 8).foldl (fun b k => if [f0,f1,f2,f3,f4,f5,f6,f7].getD k false then b |||
       (0x80#8 >>> k) else b) 0).getLsbD (7 - j.val) = [f0,f1,f2,f3,f4,f5,f6,f7].getD j.val false := by
  decide +kernel

/-- The bits of a mask byte are the flags it was made of. -/
theorem maskByte_bit (flags : List Bool) (i j : Nat) (h : j < 8) : (maskByte flags i).getLsbD (7 - j) = flags.getD
    (8 * i + j) false := by
  have := maskBits (flags.getD (8*i+0) false) (flags.getD (8*i+1) false) (flags.getD (8*i+2) false) (flags.getD
      (8*i+3) false) (flags.getD (8*i+4) false) (flags.getD (8*i+5) false) (flags.getD (8*i+6) false) (flags.getD
      (8*i+7) false) ⟨j, h⟩
  have e2 : [(flags.getD (8*i+0) false), (flags.getD (8*i+1) false), (flags.getD (8*i+2) false), (flags.getD
      (8*i+3) false), (flags.getD (8*i+4) false), (flags.getD (8*i+5) false), (flags.getD (8*i+6) false), (flags.getD
      (8*i+7) false)].getD j false = flags.getD (8*i+j) false := by
    have : j = 0 ∨ j = 1 ∨ j = 2 ∨ j = 3 ∨ j = 4 ∨ j = 5 ∨ j = 6 ∨ j = 7 := by omega
    rcases this with rfl | rfl | rfl | rfl | rfl | rfl | rfl | rfl <;> rfl
  rw [e2] at this
  rw [← this]; rfl

/-- A disposition takes three bytes. -/
theorem Disposition.bytes_three (d : Disposition) : ∃ a b c, d.bytes = [a, b, c] := by cases d <;> exact ⟨_, _, _, rfl⟩

/-! ## The substitutions of a template -/

/-- A substitution takes six bytes. -/
theorem subs_bytes_length (x : Substitution) : x.bytes.length = 6 := by
  obtain ⟨t, s⟩ := x; cases s <;> simp [Substitution.bytes]

/-- The bytes of a list of substitutions. -/
theorem flat_length (xs : List Substitution) : (xs.flatMap Substitution.bytes).length = 6 * xs.length := by
  induction xs with
  | nil => rfl
  | cons y ys ih => simp [subs_bytes_length] at *; omega

/-- Where the bytes of a substitution in a list stand. -/
theorem flat_drop : ∀ (xs : List Substitution) (i : Nat) (x : Substitution) (rest : List Byte), xs[i]? = some x →
   ∃ more, (xs.flatMap Substitution.bytes ++ rest).drop (6 * i) = x.bytes ++ more := by
  intro xs
  induction xs with
  | nil => intro i x rest h; simp at h
  | cons y ys ih =>
    intro i x rest h
    cases i with
    | zero => simp at h; subst h; exact ⟨ys.flatMap Substitution.bytes ++ rest, by simp [List.append_assoc]⟩
    | succ i =>
      obtain ⟨more, hm⟩ := ih i x rest (by simpa using h)
      refine ⟨more, ?_⟩
      rw [← hm, List.flatMap_cons, List.append_assoc, show 6 *
          (i + 1) = y.bytes.length + 6 * i by rw [subs_bytes_length]; omega, List.drop_append]; simp

end Sys2Proof.Machine
end

