-- ==== Sys2Proof/Laws/Steps.lean ====
section
/-! SUPPORT. How a predicate on states is shown to be kept by every step: once for all commands, by the ways in which
they change the state. -/

namespace Sys2Proof.Machine

/-- A predicate that each of the part's own steps keeps is kept by `settle`. -/
theorem State.settle_kept {P : State → Prop}
    (reset : ∀ s, P s → s.resetDue = true → P s.takeReset)
    (releaseEnd : ∀ s, P s → s.releaseEndDue = true → P s.releaseEnd)
    (drainEnd : ∀ s, P s → s.drainEndDue = true → P s.drainEnd)
    (delivery : ∀ s, P s → s.deliveryDue = true → P s.beginDelivery)
    (line : ∀ s, P s → s.lineChoiceDue = true → P s.lineChoice)
    (station : ∀ s, P s → s.stationChoiceDue = true → P s.stationChoice)
    (offer : ∀ s, P s → s.offerDue = true → P s.noticeOffer) {s : State} (h : P s) : P s.settle := by
  have w : ∀ (f : State → State) (b : State → Bool), (∀ s, P s → b s = true → P (f s)) → ∀ s, P s → P (s.when
      (b s) f) := by
    intro f b hf s hs
    unfold State.when; split
    · exact hf s hs ‹_›
    · exact hs
  exact w _ _ line _ (w _ _ offer _ (w _ _ station _ (w _ _ line _ (w _ _ delivery _ (w _ _ drainEnd _
      (w _ _ releaseEnd _ (w _ _ reset _ h)))))))

/-- What is to be shown of a predicate so that every step keeps it: one clause for each way in which a command changes
the state before the part's own steps follow, and one for each of those. `Q` is a side condition that the end of an
attempt may use. -/
structure State.Kept (P Q : State → Prop) : Prop where
  pend : ∀ s l n, P s → P { s with pending := l, freeCount := n }
  elapse : ∀ s, P s → P s.elapse
  hard : ∀ s st l r, P s →
    P { s.blocksReset l r with
      pins := { straps := st, linkL := l, linkS := r, resetn := true }
      unitStraps := st
      time := 0 }
  low : ∀ s, P s →
    P (let u := (((s.countReleaseCut.endStationTx .cutBadFcs).endLineTx .cutBadFcs).setRx .line none).setRx .station
        none
      u.setPins { u.pins with resetn := false })
  lineLoss : ∀ s a, P s → P ((s.abandon .line a).loseLine)
  lineEvent : ∀ s up, P s → P (s.lineLinkEvent up)
  lineRegain : ∀ s, P s → P ((s.setLine { s.line with linkUp := true }).setPins { s.pins with linkL := true })
  stationLoss : ∀ s a, P s → P (s.abandon .station a).loseStation.sleepAtLoss
  stationRegain : ∀ s, P s → P ((s.setStation { s.station with linkUp := true }).setPins { s.pins with linkS := true })
  consume : ∀ s p c, P s → P ((s.setRx p none).consume c)
  intakeError : ∀ s p, P s → P ((s.setRx p none).countIntakeError p)
  traffic : ∀ s p f, P s → P (((s.setRx p none).countReceived p).traffic p f)
  pulse : ∀ s, P s → P (s.setWake { s.wake with line := .released, pulseTimer := .stopped })
  attempt : ∀ s, P s → Q s → s.wake.attemptTimer.due = true → s.wake.phase = .attempt → P s.endAttempt
  rest : ∀ s, P s → s.wake.attemptTimer.due = true → s.wake.phase = .rest → P (s.startAttempt (s.wake.attempt + 1))
  delay : ∀ s, P s → s.releaseTimer = .running 0 → P (s.setReleaseTimer .expired)
  expiry : ∀ s n, P s → s.hold.list.any (s.expiring n) = true → P (s.setHold (s.hold.removeFirst
      (s.expiring n) .expired))
  lineDone : ∀ s x, P s → s.line.tx = some x → P (((s.endLineTx .completed).countTransmitted .line).leaveLine x)
  stationDone : ∀ s x, P s → s.station.tx = some x → P
      (((s.endStationTx .completed).countTransmitted .station).leaveStation x)
  endBinding : ∀ s, P s → P s.endBinding
  retransmit : ∀ s, P s → P (s.setNotices s.notices.retransmit)
  reset : ∀ s, P s → s.resetDue = true → P s.takeReset
  releaseEnd : ∀ s, P s → s.releaseEndDue = true → P s.releaseEnd
  drainEnd : ∀ s, P s → s.drainEndDue = true → P s.drainEnd
  delivery : ∀ s, P s → s.deliveryDue = true → P s.beginDelivery
  line : ∀ s, P s → s.lineChoiceDue = true → P s.lineChoice
  station : ∀ s, P s → s.stationChoiceDue = true → P s.stationChoice
  offer : ∀ s, P s → s.offerDue = true → P s.noticeOffer

/-- `settle` keeps it. -/
theorem State.Kept.settle {P Q : State → Prop} (k : State.Kept P Q) {s : State} (h : P s) : P s.settle :=
  State.settle_kept k.reset k.releaseEnd k.drainEnd k.delivery k.line k.station k.offer h

/-- A step that is taken only when due keeps it. -/
theorem State.Kept.when {P : State → Prop} {s : State} {b : Bool} {f : State → State} (h : P s) (hf : b = true → P
    (f s)) : P (s.when b f) := by
  unfold State.when; split
  · exact hf ‹_›
  · exact h

/-- The arrival of a command of the table keeps it. -/
theorem State.Kept.command {P Q : State → Prop} (k : State.Kept P Q) {s : State} (h : P s) (hd : CmdHeader) (c : Cmd)
    (ps : List Byte) : P (s.command hd c ps) := by
  unfold State.command
  split
  · dsimp only
    apply k.settle
    split
    · exact k.consume _ _ _ h
    · exact k.intakeError _ _ h
  · exact h

/-- The arrival of a frame keeps it. -/
theorem State.Kept.receive {P Q : State → Prop} (k : State.Kept P Q) {s : State} (h : P s) (p : Port) (f : Frame) : P
    (s.receive p f) := by
  unfold State.receive
  split
  · apply k.settle
    unfold State.intake
    dsimp only
    split
    · exact k.intakeError _ _ h
    · split
      · exact k.consume _ _ _ h
      · exact k.traffic _ _ _ h
  · exact h

/-- Every command keeps it. -/
theorem State.Kept.exec {P Q : State → Prop} (k : State.Kept P Q) {s t : State} {i : Instr} (h : P s) (q : Q s)
    (he : exec i s = .next t) : P t := by
  have ev : ∀ (f : State → State), P (f s) → s.event f = .next t → P t := by
    intro f hf he
    simp only [State.event, Host.Outcome.next.injEq] at he
    split at he
    · exact he ▸ hf
    · exact he ▸ h
  cases i
  case hardwareReset a b c => simp only [Sys2Proof.Machine.exec, execHardwareReset,
      Host.Outcome.next.injEq] at he; exact he ▸ k.hard s a b c h
  case resetnAsserted => simp only [Sys2Proof.Machine.exec,
      execResetnAsserted] at he; refine ev _ ?_ he; exact k.low s h
  case lineLinkLoss a =>
    refine ev _ ?_ he; split
    · next =>
      apply k.settle
      exact k.lineEvent _ _ (Kept.when (k.lineLoss s a h) (k.reset _ (k.lineLoss s a h)))
    · exact h
  case lineLinkRegain =>
    refine ev _ ?_ he; split
    · next =>
      apply k.settle
      exact k.lineEvent _ _ (k.lineRegain _ h)
    · exact h
  case stationLinkLoss a =>
    refine ev _ ?_ he; split
    · next =>
      apply k.settle
      exact k.stationLoss s a h
    · exact h
  case stationLinkRegain =>
    refine ev _ ?_ he; split
    · next =>
      apply k.settle
      exact k.stationRegain s h
    · exact h
  case lineFrameReceived f => refine ev _ ?_ he; exact k.receive h _ _
  case stationFrameReceived f => refine ev _ ?_ he; exact k.receive h _ _
  case pulseTimerExpiry =>
    refine ev _ ?_ he; split
    · next =>
      apply k.settle
      exact k.pulse s h
    · exact h
  case attemptTimerExpiry =>
    refine ev _ ?_ he; split
    · next hd =>
      apply k.settle
      exact k.attempt s h q (by simp at hd; exact hd.1) (by simp at hd; exact hd.2)
    · exact h
  case restExpiry =>
    refine ev _ ?_ he; split
    · next hd =>
      apply k.settle
      exact k.rest s h (by simp at hd; exact hd.1) (by simp at hd; exact hd.2)
    · exact h
  case drainEnd =>
    refine ev _ ?_ he; split
    · next hd =>
      apply k.settle
      exact k.drainEnd s h hd
    · exact h
  case releaseDelayExpiry =>
    refine ev _ ?_ he; split
    · next hd =>
      apply k.settle
      exact k.delay s h (by simpa using hd)
    · exact h
  case beginDelivery =>
    refine ev _ ?_ he; split
    · next hd =>
      apply k.settle
      exact k.delivery s h hd
    · exact h
  case releaseEnd =>
    refine ev _ ?_ he; split
    · next hd =>
      apply k.settle
      exact k.releaseEnd s h hd
    · exact h
  case expiry n =>
    refine ev _ ?_ he; split
    · next hd =>
      apply k.settle
      exact k.expiry s n h hd
    · exact h
  case lineTransmitStart =>
    refine ev _ ?_ he; split
    · next hd =>
      apply k.settle
      exact k.line s h hd
    · exact h
  case stationTransmitStart =>
    refine ev _ ?_ he; split
    · next hd =>
      apply k.settle
      exact k.station s h hd
    · exact h
  case lineTransmitComplete =>
    simp only [Sys2Proof.Machine.exec, execLineTransmitComplete] at he
    refine ev _ ?_ he
    split
    · exact h
    · exact k.settle (k.lineDone s _ h ‹_›)
  case stationTransmitComplete =>
    simp only [Sys2Proof.Machine.exec, execStationTransmitComplete] at he
    refine ev _ ?_ he
    split
    · exact h
    · exact k.settle (k.stationDone s _ h ‹_›)
  case resetTakesEffect =>
    refine ev _ ?_ he; split
    · next hd =>
      apply k.settle
      exact k.reset s h hd
    · exact h
  case leaseExpiry =>
    refine ev _ ?_ he; split
    · next hd =>
      apply k.settle
      exact k.endBinding s h
    · exact h
  case noticeOffer =>
    refine ev _ ?_ he; split
    · next hd =>
      apply k.settle
      exact k.offer s h hd
    · exact h
  case retransmitTimerExpiry =>
    refine ev _ ?_ he; split
    · next hd =>
      apply k.settle
      exact k.retransmit s h
    · exact h
  all_goals exact ev _ (k.command h _ _ _) he

/-- Every step keeps it. -/
theorem State.Kept.step {P Q : State → Prop} (k : State.Kept P Q) {s t : State} (h : P s)
    (q : ∀ l n, Q { s with pending := l, freeCount := n }) (he : step s = .next t) : P t := by
  unfold Sys2Proof.Machine.step at he
  split at he
  · simp only [Host.Outcome.next.injEq] at he
    subst he
    unfold State.tick
    split
    · exact k.pend _ _ _ (k.elapse s h)
    · exact h
  · exact k.exec (k.pend s _ _ h) (q _ _) he

/-- A predicate that the owners, the placing of a response and the changes of the binding keep is kept by the
judging. -/
theorem State.judge_kept {P : State → Prop} (s : State) (c : Ctl) (h : P s) (ho : ∀ (k : Cmd) , P (k.own c s).state)
    (pl : ∀ (u : State) p f, P u → P (u.place p f)) (sb : ∀ (u : State) b, P u → P (u.setBinding b))
    (eb : ∀ u : State, P u → P u.endBinding) : P (s.judge c) := by
  have an : ∀ x b, P (s.answer c x b) := fun x b => pl _ _ _ h
  have ex : ∀ k b, P (s.execute k c b) := by
    intro k b; unfold State.execute; dsimp only; split
    · exact eb _ (pl _ _ _ (ho k))
    · exact sb _ _ (pl _ _ _ (ho k))
  unfold State.judge
  split
  · exact an _ _
  · split
    · split <;> exact an _ _
    · split
      · unfold State.judgeCommand
        split
        · exact an _ _
        · split
          · exact an _ _
          · split
            · unfold State.judgeBound
              repeat' split
              all_goals first | exact ex _ _ | exact an _ _ | exact sb _ _ (pl _ _ _ h)
            · split
              · unfold State.judgeBind; dsimp only
                repeat' split
                all_goals first | exact an _ _ | exact sb _ _ (pl _ _ _ h)
              · exact pl _ _ _ (ho _)
      · exact an _ _

end Sys2Proof.Machine
end

