-- ==== Sys2Proof/Laws/Store.lean ====
section
/-! SUPPORT. The accounting and the order of the hold store, kept by each of its operations. -/

namespace Sys2Proof.Machine

/-! ## The order of the hold list -/

/-- Serial distances counted from a later serial. -/
theorem serialFrom_shift {a b x : Word16}
    (h : serialFrom a b ≤ serialFrom a x) : serialFrom b x = serialFrom a x - serialFrom a b := by
  simp only [serialFrom] at *
  bv_omega

/-- Descriptors that leave keep the order. -/
theorem HoldStore.Ordered.sublist {h h' : HoldStore} (o : h.Ordered) (hs : h'.list.Sublist h.list)
    (hn : h'.nextSerial = h.nextSerial) : h'.Ordered := by
  cases hl : h.list with
  | nil =>
    rw [hl] at hs
    have : h'.list = [] := List.sublist_nil.1 hs
    exact ⟨by simp [this], by simp [this], by simp [this], by simp [this]⟩
  | cons d rest =>
    have a := o.ascending d rest hl
    have b := o.beyond d rest hl
    have nr := o.near d rest hl
    have oh := o.onlyHead
    have hp : h'.list.Pairwise fun x y => serialFrom d.serial x.serial < serialFrom d.serial y.serial := by
      rw [List.pairwise_map] at a
      exact a.sublist hs
    have key : ∀ e r, h'.list = e :: r → ∀ x ∈ h'.list, serialFrom d.serial e.serial ≤ serialFrom d.serial x.serial :=
        by
      intro e r he x hx
      rw [he] at hp hx
      rcases List.mem_cons.1 hx with rfl | hx
      · exact le_refl _
      · exact le_of_lt ((List.pairwise_cons.1 hp).1 x hx)
    have ht : ∀ e r, h'.list = e :: r → serialFrom e.serial h.nextSerial = serialFrom d.serial h.nextSerial - serialFrom d.serial e.serial := by
      intro e r he
      exact serialFrom_shift (le_of_lt (b e (hs.subset (by simp [he]))))
    refine ⟨?_, ?_, ?_, ?_⟩
    · intro e r he
      rw [List.pairwise_map]
      refine (List.pairwise_iff_forall_sublist.2 ?_)
      intro x y hxy
      have hx : x ∈ h'.list := hxy.subset (by simp)
      have hy : y ∈ h'.list := hxy.subset (by simp)
      have h1 := key e r he x hx
      have h2 := key e r he y hy
      have h3 := (List.pairwise_iff_forall_sublist.1 hp) hxy
      rw [serialFrom_shift h1, serialFrom_shift h2]
      omega
    · intro e r he x hx
      have h1 := key e r he x hx
      have h2 := b x (hs.subset hx)
      rw [serialFrom_shift h1, hn, ht e r he]
      omega
    · intro e r he
      rw [hn, ht e r he]; omega
    · have : h'.list.tail.Sublist h.list.tail := hs.tail
      intro x hx
      exact oh x (this.subset hx)

/-- A frame accepted at the tail keeps the order. -/
theorem HoldStore.Ordered.accept {h : HoldStore} (o : h.Ordered) (c : HoldClass) (g : Origin) (f : Frame)
    (now : Word32) (hr : h.serialRoom = true) : (h.accept c g f now).Ordered := by
  cases hl : h.list with
  | nil =>
    refine ⟨?_, ?_, ?_, ?_⟩
    · intro d r hd; simp [HoldStore.accept, hl]
    · intro d r hd x hx
      simp [HoldStore.accept, hl] at hd hx ⊢
      subst hx
      obtain ⟨rfl, _⟩ := hd
      simp [serialFrom, -BitVec.toNat_sub]
    · intro d r hd
      simp [HoldStore.accept, hl] at hd ⊢
      obtain ⟨rfl, _⟩ := hd
      simp [serialFrom, -BitVec.toNat_sub]
    · simp [HoldStore.accept, hl]
  | cons d rest =>
    have a := o.ascending d rest hl
    have b := o.beyond d rest hl
    have room : (h.nextSerial - d.serial).toNat ≤ 32767 := by simpa [HoldStore.serialRoom, hl] using hr
    have step : serialFrom d.serial (h.nextSerial + 1) = serialFrom d.serial h.nextSerial + 1 := by
      simp only [serialFrom] at *; bv_omega
    have hd : ∀ e r, (h.accept c g f now).list = e :: r → e = d := by
      intro e r he; simp [HoldStore.accept, hl] at he; exact he.1.symm
    refine ⟨?_, ?_, ?_, ?_⟩
    · intro e r he
      rw [hd e r he]
      show ((h.list ++ [_]).map _).Pairwise _
      rw [List.map_append, List.pairwise_append]
      refine ⟨a, by simp, ?_⟩
      intro x hx y hy
      simp only [List.mem_map] at hx
      obtain ⟨z, hz, rfl⟩ := hx
      simp at hy; subst hy
      exact b z hz
    · intro e r he x hx
      rw [hd e r he]
      show _ < serialFrom d.serial (h.nextSerial + 1)
      rw [step]
      rcases List.mem_append.1 hx with hx | hx
      · have := b x hx; omega
      · simp at hx; subst hx; show serialFrom d.serial h.nextSerial < _; omega
    · intro e r he
      rw [hd e r he]
      show serialFrom d.serial (h.nextSerial + 1) ≤ _
      rw [step]
      simp only [serialFrom]; omega
    · intro x hx
      simp only [HoldStore.accept, hl, List.cons_append, List.tail_cons] at hx
      rcases List.mem_append.1 hx with hx | hx
      · exact o.onlyHead x (by simp [hl, hx])
      · simp at hx; subst hx; rfl

/-- A change of descriptors that keeps serials keeps the order. -/
theorem HoldStore.Ordered.map {h h' : HoldStore} (o : h.Ordered)
    (hl : h'.list.map Descriptor.serial = h.list.map Descriptor.serial) (hn : h'.nextSerial = h.nextSerial)
        (ht : ∀ x ∈ h'.list.tail, x.state = .held) : h'.Ordered := by
  have key : ∀ e r, h'.list = e :: r → ∃ d q, h.list = d :: q ∧ d.serial = e.serial := by
    intro e r he
    cases hd : h.list with
    | nil => simp [he, hd] at hl
    | cons d q => simp [he, hd] at hl; exact ⟨d, q, rfl, hl.1.symm⟩
  have mm : ∀ (p : Word16) , (h'.list.map fun x => serialFrom p x.serial) = h.list.map fun x => serialFrom p x.serial := by
    intro p
    have : (fun x : Descriptor => serialFrom p x.serial) = serialFrom p ∘ Descriptor.serial := rfl
    rw [this, ← List.map_map, hl, List.map_map]
  refine ⟨?_, ?_, ?_, ht⟩
  · intro e r he
    obtain ⟨d, q, h1, h2⟩ := key e r he
    rw [← h2, mm]; exact o.ascending d q h1
  · intro e r he x hx
    obtain ⟨d, q, h1, h2⟩ := key e r he
    have : x.serial ∈ h.list.map Descriptor.serial := by rw [← hl]; exact List.mem_map_of_mem hx
    obtain ⟨y, hy, e1⟩ := List.mem_map.1 this
    rw [← h2, ← e1, hn]; exact o.beyond d q h1 y hy
  · intro e r he
    obtain ⟨d, q, h1, h2⟩ := key e r he
    rw [← h2, hn]; exact o.near d q h1

/-! ## The accounting -/

/-- A descriptor that leaves the list and is freed keeps the accounts. -/
theorem HoldStore.Accounted.free {h : HoldStore} {l : List Descriptor} {d : Descriptor} (a : h.Accounted)
    (hp : h.list.Perm (d :: l)) (why : Leave) : (HoldStore.free { h with list := l } why d).Accounted := by
  have cls : ∀ c, ((h.ofClass c).map Descriptor.blocks).sum = (if d.cls = c then d.blocks else 0) +
      ((l.filter fun d => d.cls == c).map Descriptor.blocks).sum := by
    intro c
    have := ((hp.filter fun d => d.cls == c).map Descriptor.blocks).sum_eq
    simp only [HoldStore.ofClass]
    rw [this]
    by_cases hc : d.cls = c <;> simp [hc]
  have len : ∀ c, (h.ofClass c).length = (if d.cls = c then 1 else 0) + (l.filter fun d => d.cls == c).length := by
    intro c
    have := (hp.filter fun d => d.cls == c).length_eq
    simp only [HoldStore.ofClass]
    rw [this]
    by_cases hc : d.cls = c <;> simp [hc]; omega
  refine ⟨?_, ?_, ?_, ?_, ?_⟩
  · have e := a.blocks
    rw [(hp.map Descriptor.blocks).sum_eq] at e
    simp [HoldStore.free] at e ⊢; omega
  · have e := a.descriptors
    rw [hp.length_eq] at e
    simp [HoldStore.free] at e ⊢; omega
  · intro c
    have e := a.used c
    rw [cls] at e
    show ((h.accounts.set d.cls _).get c).used = _
    rw [Accounts.get_set]
    split
    · next hc =>
      have hc : d.cls = c := by simp_all
      subst hc
      simp at e
      have : (Account.leave (h.accounts.get d.cls) why d.blocks).used =
          (h.accounts.get d.cls).used - d.blocks := by cases why <;> rfl
      simp only [this, e]; simp [HoldStore.ofClass, HoldStore.free]
    · next hc =>
      have hc : ¬ d.cls = c := by intro h; exact hc (by simp_all)
      simp [hc] at e; rw [e]; rfl
  · intro c
    have e := a.held c
    rw [len] at e
    show ((h.accounts.set d.cls _).get c).held = _
    rw [Accounts.get_set]
    split
    · next hc =>
      have hc : d.cls = c := by simp_all
      subst hc
      simp at e
      have : (Account.leave (h.accounts.get d.cls) why d.blocks).held =
          (h.accounts.get d.cls).held - 1 := by cases why <;> rfl
      simp only [this, e]; simp [HoldStore.ofClass, HoldStore.free]
    · next hc =>
      have hc : ¬ d.cls = c := by intro h; exact hc (by simp_all)
      simp [hc] at e; rw [e]; rfl
  · intro c
    have e := a.balance c
    have eh := a.held c
    rw [len] at eh
    show ((h.accounts.set d.cls _).get c).admitted = ((h.accounts.set d.cls _).get c).delivered +
        ((h.accounts.set d.cls _).get c).expired + ((h.accounts.set d.cls _).get c).evicted +
        ((h.accounts.set d.cls _).get c).purged + BitVec.ofNat 32 ((h.accounts.set d.cls _).get c).held
    rw [Accounts.get_set]
    split
    · next hc =>
      have hc : d.cls = c := by simp_all
      subst hc
      simp at eh
      have : BitVec.ofNat 32 (h.accounts.get d.cls).held = BitVec.ofNat 32 ((h.accounts.get d.cls).held - 1) + 1 := by
        rw [eh]; show _ = BitVec.ofNat 32 _ + 1#32; rw [← BitVec.ofNat_add]; congr 1; omega
      rw [this] at e
      cases why <;> simp only [Account.leave] <;> rw [e] <;> ac_rfl
    · exact e

/-- A change of descriptors that keeps class and blocks keeps the accounts. -/
theorem HoldStore.Accounted.same {h h' : HoldStore} (a : h.Accounted) (hl : h'.list.map (fun d =>
    (d.cls, d.blocks)) = h.list.map (fun d => (d.cls, d.blocks)))
    (h1 : h'.freeBlocks = h.freeBlocks) (h2 : h'.accounts = h.accounts) : h'.Accounted := by
  have e0 : h'.list.map Descriptor.blocks = h.list.map Descriptor.blocks := by
    have := congrArg (List.map Prod.snd) hl
    simpa [Function.comp_def] using this
  have e1 : h'.list.length = h.list.length := by simpa using congrArg List.length hl
  have e2 : ∀ c, (h'.ofClass c).map (fun d => (d.cls, d.blocks)) = (h.ofClass c).map (fun d => (d.cls, d.blocks)) := by
    intro c
    have f : ∀ l : List Descriptor, (l.filter fun d => d.cls == c).map (fun d => (d.cls, d.blocks)) = (l.map
        (fun d => (d.cls, d.blocks))).filter fun p => p.1 == c := by
      intro l; rw [List.filter_map]; rfl
    simp only [HoldStore.ofClass, f, hl]
  have e3 : ∀ c, (h'.ofClass c).map Descriptor.blocks = (h.ofClass c).map Descriptor.blocks := by
    intro c
    have := congrArg (List.map Prod.snd) (e2 c)
    simpa [Function.comp_def] using this
  have e4 : ∀ c, (h'.ofClass c).length = (h.ofClass c).length := by
    intro c; simpa using congrArg List.length (e2 c)
  refine ⟨by rw [h1, e0]; exact a.blocks, by rw [e1]; exact a.descriptors, fun c => ?_, fun c => ?_, fun c => ?_⟩
  · rw [h2, e3]; exact a.used c
  · rw [h2, e4]; exact a.held c
  · rw [h2]; exact a.balance c

/-- A frame accepted keeps the accounts. -/
theorem HoldStore.Accounted.accept {h : HoldStore} (a : h.Accounted) (c : HoldClass) (g : Origin) (f : Frame)
    (now : Word32)
    (h1 : h.list.length < 128) (h2 : blocksFor f.length ≤ h.freeBlocks) : (h.accept c g f now).Accounted := by
  have one : ∀ k, (h.accept c g f now).ofClass k = h.ofClass k ++
      (if c = k then [{ serial := h.nextSerial, cls := c, origin := g, arrival := now, state := .held, frame := f }] else []) := by
    intro k
    simp only [HoldStore.ofClass, HoldStore.accept, List.filter_append]
    by_cases hc : c = k <;> simp [hc]
  refine ⟨?_, ?_, ?_, ?_, ?_⟩
  · have := a.blocks
    simp [HoldStore.accept, Descriptor.blocks] at this ⊢; omega
  · simp [HoldStore.accept]; omega
  · intro k
    rw [one]
    show ((h.accounts.set c _).get k).used = _
    rw [Accounts.get_set]
    by_cases hc : k = c
    · subst hc; simp [Account.join, a.used, Descriptor.blocks]
    · rw [if_neg hc, if_neg (Ne.symm hc), List.append_nil]; exact a.used k
  · intro k
    rw [one]
    show ((h.accounts.set c _).get k).held = _
    rw [Accounts.get_set]
    by_cases hc : k = c
    · subst hc; simp [Account.join, a.held]
    · rw [if_neg hc, if_neg (Ne.symm hc), List.append_nil]; exact a.held k
  · intro k
    have e := a.balance k
    show ((h.accounts.set c _).get k).admitted = ((h.accounts.set c _).get k).delivered +
        ((h.accounts.set c _).get k).expired + ((h.accounts.set c _).get k).evicted +
        ((h.accounts.set c _).get k).purged + BitVec.ofNat 32 ((h.accounts.set c _).get k).held
    rw [Accounts.get_set]
    by_cases hc : k = c
    · subst hc
      simp only [if_true, Account.join]
      rw [e, BitVec.ofNat_add]; show _ + 1#32 = _; ac_rfl
    · rw [if_neg hc]; exact e

/-- A refusal keeps the accounts. -/
theorem HoldStore.Accounted.refuse {h : HoldStore} (a : h.Accounted) (c : HoldClass) : (h.refuse c).Accounted := by
  refine ⟨a.blocks, a.descriptors, ?_, ?_, ?_⟩
  all_goals intro k; simp only [HoldStore.refuse, Accounts.get_set]
  · have := a.used k; by_cases hc : k = c
    · subst hc; simp only [if_true, Account.refuse]; exact this
    · rw [if_neg hc]; exact this
  · have := a.held k; by_cases hc : k = c
    · subst hc; simp only [if_true, Account.refuse]; exact this
    · rw [if_neg hc]; exact this
  · have := a.balance k; by_cases hc : k = c
    · subst hc; simp only [if_true, Account.refuse]; exact this
    · rw [if_neg hc]; exact this

/-- A configuration keeps the accounts. -/
theorem HoldStore.Accounted.config {h : HoldStore} (a : h.Accounted)
    (k : Configs) : HoldStore.Accounted { h with configs := k } :=
  ⟨a.blocks, a.descriptors, a.used, a.held, a.balance⟩

/-- A removal keeps the accounts. -/
theorem HoldStore.Accounted.remove {h : HoldStore} (a : h.Accounted) (sel : Descriptor → Bool) (why : Leave) :
    (h.remove sel why).Accounted := by
  have : ∀ (ds l : List Descriptor) (g : HoldStore), g.Accounted → g.list.Perm (ds ++ l) → (ds.foldl (fun
      (h : HoldStore) d => h.free why d) { g with list := l }).Accounted := by
    intro ds
    induction ds with
    | nil =>
      intro l g hg hp
      refine ⟨?_, ?_, ?_, ?_, hg.balance⟩
      · have := hg.blocks; rw [(hp.map Descriptor.blocks).sum_eq] at this; simpa using this
      · have := hg.descriptors; rw [hp.length_eq] at this; simpa using this
      · intro c
        have := hg.used c
        simp only [HoldStore.ofClass] at this
        rw [((hp.filter _).map Descriptor.blocks).sum_eq] at this
        simpa [HoldStore.ofClass] using this
      · intro c
        have := hg.held c
        simp only [HoldStore.ofClass] at this
        rw [(hp.filter _).length_eq] at this
        simpa [HoldStore.ofClass] using this
    | cons d ds ih =>
      intro l g hg hp
      exact ih l _ (hg.free hp why) (List.Perm.refl _)
  exact this (h.list.filter sel) (h.list.filter fun d => !sel d) h a (List.filter_append_perm ..).symm

/-! ## Both together -/

/-- A hold store whose accounts and whose order are right. -/
def HoldStore.Sound (h : HoldStore) : Prop := h.Accounted ∧ h.Ordered

/-- The removal of the oldest selected descriptor. -/
theorem HoldStore.Sound.removeFirst {h : HoldStore} (a : h.Sound) (sel : Descriptor → Bool) (why : Leave) :
    (h.removeFirst sel why).Sound := by
  cases hs : h.list.any sel
  · rw [HoldStore.removeFirst_none why (by simpa using hs)]; exact a
  · obtain ⟨pre, d, post, e, hd, hp⟩ := exists_first hs
    rw [HoldStore.removeFirst_eq why e hd hp]
    exact ⟨a.1.free (by rw [e]; exact List.perm_middle) why, a.2.sublist (by simp [e]) rfl⟩

/-- The removal of every selected descriptor. -/
theorem HoldStore.Sound.remove {h : HoldStore} (a : h.Sound) (sel : Descriptor → Bool) (why : Leave) :
    (h.remove sel why).Sound := by
  obtain ⟨h1, h2, -, -⟩ := HoldStore.remove_parts h sel why
  exact ⟨a.1.remove sel why, a.2.sublist (by rw [h1]; exact List.filter_sublist) h2⟩

/-- A new configuration. -/
theorem HoldStore.Sound.config {h : HoldStore} (a : h.Sound) (k : Configs) : HoldStore.Sound { h with configs := k } :=
  ⟨a.1.config k, a.2.sublist (List.Sublist.refl _) rfl⟩

/-- A CLASS_WRITE. -/
theorem HoldStore.Sound.writeClass {h : HoldStore} (a : h.Sound) (c : HoldClass) (k : ClassConfig) (now : Word32) :
    (h.writeClass c k now).Sound :=
  (a.config _).remove _ _

/-- What the conditions of an admission say. -/
theorem HoldStore.fits_parts {h : HoldStore} {c : HoldClass} {n : Nat} (hf : h.fits c n = true) : h.list.length < 128
    ∧ n ≤ h.freeBlocks ∧ h.serialRoom = true := by
  simp only [HoldStore.fits, Config.descriptors,
      Bool.and_eq_true] at hf; exact ⟨of_decide_eq_true hf.1.1.1, of_decide_eq_true hf.1.1.2, hf.2⟩

/-- An admission. -/
theorem HoldStore.Sound.accept {h : HoldStore} (a : h.Sound) {c : HoldClass} (g : Origin) (f : Frame) (now : Word32)
    (hf : h.fits c (blocksFor f.length) = true) : (h.accept c g f now).Sound := by
  obtain ⟨h1, h2, h3⟩ := HoldStore.fits_parts hf
  exact ⟨a.1.accept c g f now h1 h2, a.2.accept c g f now h3⟩

/-- A refusal. -/
theorem HoldStore.Sound.refuse {h : HoldStore} (a : h.Sound) (c : HoldClass) : (h.refuse c).Sound :=
  ⟨a.1.refuse c, a.2.sublist (List.Sublist.refl _) rfl⟩

/-- A run of evictions. -/
theorem HoldStore.Sound.evictUntil {c : HoldClass} {n fuel : Nat} {h h' : HoldStore} {k : Nat} (a : h.Sound)
    (he : HoldStore.evictUntil c n fuel h = some (h', k)) : h'.Sound := by
  induction fuel generalizing h k with
  | zero => simp only [HoldStore.evictUntil] at he; split at he <;> simp_all
  | succ m ih =>
    simp only [HoldStore.evictUntil] at he
    split at he
    · simp_all
    · split at he
      · simp only [Option.map_eq_some_iff, Prod.mk.injEq, Prod.exists] at he
        obtain ⟨h1, k1, e1, e2, -⟩ := he
        subst e2
        exact ih (a.removeFirst _ _) e1
      · simp at he

/-- An offer, whatever it comes to. -/
theorem HoldStore.Sound.offer {h : HoldStore} (a : h.Sound) (c : HoldClass) (g : Origin) (f : Frame) (now : Word32) :
    (h.offer c g f now).1.Sound := by
  unfold HoldStore.offer
  dsimp only
  split
  · exact a.accept g f now ‹_›
  · split
    · exact a.refuse c
    · exact a.refuse c
    · split
      · next he => exact (a.evictUntil he).accept g f now (HoldStore.evictUntil_parts he).1
      · exact a.refuse c

/-- The begin of a delivery. -/
theorem HoldStore.Sound.begin {h : HoldStore} (a : h.Sound) : h.beginDelivery.Sound := by
  unfold HoldStore.beginDelivery
  split
  · exact a
  · next d rest hl =>
    refine ⟨a.1.same (by simp [hl, Descriptor.blocks]) rfl rfl, a.2.map (by simp [hl]) rfl ?_⟩
    have := a.2.onlyHead; simpa [hl] using this

/-- The return of the delivering descriptor. -/
theorem HoldStore.Sound.back {h : HoldStore} (a : h.Sound) : h.returnHeld.Sound := by
  refine ⟨a.1.same (by simp [HoldStore.returnHeld, Descriptor.blocks]) rfl rfl,
      a.2.map (by simp [HoldStore.returnHeld]) rfl ?_⟩
  intro x hx
  have : x ∈ h.returnHeld.list := List.mem_of_mem_tail hx
  simp [HoldStore.returnHeld] at this
  obtain ⟨y, _, rfl⟩ := this; rfl

/-- A cut with return. -/
theorem HoldStore.Sound.cut {h : HoldStore} (a : h.Sound) (now : Word32) : (h.cutWithReturn now).Sound := by
  unfold HoldStore.cutWithReturn
  split
  · exact a
  · dsimp only; split
    · exact a.back.removeFirst _ _
    · exact a.back

/-- The store after a reset. -/
theorem HoldStore.Sound.initial : HoldStore.initial.Sound := by
  refine ⟨⟨rfl, by decide, ?_, ?_, ?_⟩, ⟨by simp [HoldStore.initial], by simp [HoldStore.initial],
      by simp [HoldStore.initial], by simp [HoldStore.initial]⟩⟩
  all_goals intro c; cases c <;> rfl

/-! ## Which descriptors remain -/

/-- An offer leaves old descriptors, and adds one that is HELD. -/
theorem HoldStore.offer_list (h : HoldStore) (c o f now) : (∀ d ∈
    (h.offer c o f now).1.list, d ∈ h.list ∨ d.state = .held) := by
  intro d hd
  unfold HoldStore.offer at hd
  dsimp only at hd
  split at hd
  · simp only [HoldStore.accept, List.mem_append, List.mem_singleton] at hd
    rcases hd with hd | rfl
    · exact .inl hd
    · exact .inr rfl
  · split at hd
    · exact .inl hd
    · exact .inl hd
    · split at hd
      · next he =>
        simp only [HoldStore.accept, List.mem_append, List.mem_singleton] at hd
        rcases hd with hd | rfl
        · exact .inl ((HoldStore.evictUntil_parts he).2.2.2.2.subset hd)
        · exact .inr rfl
      · exact .inl hd

/-- A removal leaves old descriptors. -/
theorem HoldStore.removeFirst_mem (h : HoldStore) (sel why) : ∀ d ∈ (h.removeFirst sel why).list, d ∈ h.list := by
  intro d hd
  cases hs : h.list.any sel
  · rwa [HoldStore.removeFirst_none why (by simpa using hs)] at hd
  · obtain ⟨pre, x, post, e, hx, hp⟩ := exists_first hs
    rw [HoldStore.removeFirst_eq why e hx hp] at hd
    simp [HoldStore.free] at hd
    rw [e]; simp; tauto

/-- Where nothing is DELIVERING, everything is HELD. -/
theorem notDelivering {l : List Descriptor}
    (h : l.find? Descriptor.isDelivering = none) : ∀ d ∈ l, d.state = .held := by
  intro d hd
  have := List.find?_eq_none.1 h d hd
  cases hx : d.state
  · rfl
  · simp [Descriptor.isDelivering, hx] at this

/-- After a cut with return everything is HELD. -/
theorem HoldStore.cutWithReturn_held (h : HoldStore) (now) : ∀ d ∈ (h.cutWithReturn now).list, d.state = .held := by
  unfold HoldStore.cutWithReturn
  split
  · exact notDelivering ‹_›
  · have hb : ∀ d ∈ h.returnHeld.list, d.state = .held := by
      intro d hd; simp [HoldStore.returnHeld] at hd; obtain ⟨a, _, rfl⟩ := hd; rfl
    dsimp only; split
    · exact fun d hd => hb d (HoldStore.removeFirst_mem _ _ _ d hd)
    · exact hb

/-- What the drain condition says. -/
theorem State.drained_held {s : State} (h : s.drained = true) : s.transit.toStation = []
    ∧ ∀ d ∈ s.hold.list, d.state = .held := by
  simp only [State.drained, Bool.and_eq_true, List.isEmpty_iff, Option.isNone_iff_eq_none] at h
  exact ⟨h.1, notDelivering h.2⟩

/-! ## Evictions one after another -/

/-- A run of evictions stops at the first store that fits, or fails when none does. -/
theorem HoldStore.evictUntil_spec (c : HoldClass) (n : Nat) : ∀ (fuel : Nat) (h : HoldStore),
   (h.list.filter (Descriptor.evictable c)).length ≤ fuel →
   (∀ k, k ≤ (h.list.filter (Descriptor.evictable c)).length → (((fun h => h.removeFirst
       (Descriptor.evictable c) .evicted)^[k] h)).fits c n = true →
     (∀ j, j < k → (((fun h => h.removeFirst (Descriptor.evictable c) .evicted)^[j] h)).fits c n = false) →
     HoldStore.evictUntil c n fuel h = some (((fun h => h.removeFirst (Descriptor.evictable c) .evicted)^[k] h), k)) ∧
   ((∀ k, k ≤ (h.list.filter (Descriptor.evictable c)).length → (((fun h => h.removeFirst
       (Descriptor.evictable c) .evicted)^[k] h)).fits c n = false) →
     HoldStore.evictUntil c n fuel h = none) := by
  intro fuel
  induction fuel with
  | zero =>
    intro h hl
    have hl : (h.list.filter (Descriptor.evictable c)).length = 0 := by omega
    refine ⟨?_, ?_⟩
    · intro k hk hf hj
      have : k = 0 := by omega
      subst this
      simp at hf
      simp [HoldStore.evictUntil, hf]
    · intro hh
      have := hh 0 (by omega); simp at this
      simp [HoldStore.evictUntil, this]
  | succ m ih =>
    intro h hl
    by_cases ha : h.list.any (Descriptor.evictable c) = true
    · obtain ⟨pre, d, post, e, hd, hp⟩ := exists_first ha
      have er := HoldStore.removeFirst_eq .evicted e hd hp
      have hlen : ((h.removeFirst (Descriptor.evictable c) .evicted).list.filter
          (Descriptor.evictable c)).length + 1 = (h.list.filter (Descriptor.evictable c)).length := by
        rw [er, e]; simp [HoldStore.free, hd]; omega
      obtain ⟨i1, i2⟩ := ih (h.removeFirst (Descriptor.evictable c) .evicted) (by omega)
      refine ⟨?_, ?_⟩
      · intro k hk hf hj
        cases k with
        | zero => simp at hf; simp [HoldStore.evictUntil, hf]
        | succ k =>
          have h0 := hj 0 (by omega); simp at h0
          have := i1 k (by omega) (by simpa using hf) (fun j hjk => by have := hj (j+1) (by omega); simpa using this)
          simp only [HoldStore.evictUntil, h0, ha, this]; simp
      · intro hh
        have h0 := hh 0 (by omega); simp at h0
        have := i2 (fun k hk => by have := hh (k+1) (by omega); simpa using this)
        simp only [HoldStore.evictUntil, h0, ha, this]; simp
    · have hz : (h.list.filter (Descriptor.evictable c)).length = 0 := by
        simp at ha ⊢; simpa using ha
      refine ⟨?_, ?_⟩
      · intro k hk hf hj
        have : k = 0 := by omega
        subst this
        simp at hf
        simp [HoldStore.evictUntil, hf]
      · intro hh
        have := hh 0 (by omega); simp at this
        simp only [HoldStore.evictUntil, this, ha]; simp

end Sys2Proof.Machine
end

