-- ==== Sys2Proof/Laws/Time.lean ====
section
/-! SUPPORT. The passing of a millisecond: the due expiries in any order, and what does not move. -/

namespace Sys2Proof.Machine

/-- A reordering has the same elements, each as often. -/
theorem reorder_perm {α : Type} (l : List α) (fuel n : Nat) (h : l.length = fuel) : (reorder fuel n l).Perm l := by
  induction fuel generalizing l n with
  | zero => simp [reorder]
  | succ k ih =>
    match l, h with
    | [x], _ => simp [reorder]
    | x :: y :: rest, h =>
      simp only [reorder]
      have hlt : n % (x :: y :: rest).length < (x :: y :: rest).length := Nat.mod_lt _ (by simp)
      rw [List.getElem?_eq_getElem hlt]
      refine (List.Perm.cons _ (ih _ _ ?_)).trans ?_
      · rw [List.length_eraseIdx_of_lt hlt]; simp_all
      · exact List.getElem_cons_eraseIdx_perm hlt

/-- Ticks of a timer keep it running or stopped. -/
@[simp] theorem Timer.tick_stopped (t : Timer) : t.tick = .stopped ↔ t = .stopped := by
  cases t <;> simp [Timer.tick]

@[simp] theorem ReleaseTimer.tick_stopped (t : ReleaseTimer) : t.tick = .stopped ↔ t = .stopped := by
  cases t <;> simp [ReleaseTimer.tick]

@[simp] theorem ReleaseTimer.tick_expired (t : ReleaseTimer) : t.tick = .expired ↔ t = .expired := by
  cases t <;> simp [ReleaseTimer.tick]

end Sys2Proof.Machine
end

