-- ==== Sys2Proof/Tests/Slice0.lean ====
section
/-! SUPPORT. The model's own tests: ill-formed commands, the check values and worked figures of the manual, one small
step for the commands, and, for each statement with hypotheses, concrete states and operands that meet them. -/

/- The kernel checks most tests at once; one after another they need one thread, not one thread each. -/
set_option Elab.async false

namespace Sys2Proof.Tests

open Sys2Proof.Machine

/-! ## Well-formedness: one ill-formed term for each check -/

/-- A header that any test may use. -/
def anyHeader : CmdHeader := { port := .line, source := 0x0020A4110701#48, seq := 0, tag := 5 }

theorem test_illformed_line_loss_without_a_byte : (Instr.lineLinkLoss (some [])).wellFormed = false := by decide
theorem test_illformed_station_loss_without_a_byte : (Instr.stationLinkLoss (some [])).wellFormed = false := by decide
theorem test_illformed_empty_line_frame : (Instr.lineFrameReceived []).wellFormed = false := by decide
theorem test_illformed_empty_station_frame : (Instr.stationFrameReceived []).wellFormed = false := by decide
theorem test_illformed_profile_of_11_bytes :
    (Instr.profileWrite anyHeader 0 (List.replicate 11 0)).wellFormed = false := by decide
theorem test_illformed_profile_of_13_bytes :
    (Instr.profileWrite anyHeader 0 (List.replicate 13 0)).wellFormed = false := by decide
theorem test_illformed_rule_beyond_a_frame :
    (Instr.ruleStage anyHeader 0 0 (List.replicate 1493 0)).wellFormed = false := by decide +kernel
theorem test_illformed_template_beyond_a_frame :
    (Instr.templateWrite anyHeader 0 0 (List.replicate 1493 0)).wellFormed = false := by decide +kernel
theorem test_wellformed_at_the_longest :
    (Instr.ruleStage anyHeader 0 0 (List.replicate 1492 0)).wellFormed = true ∧
    (Instr.templateWrite anyHeader 0 0 (List.replicate 1492 0)).wellFormed = true ∧
    (Instr.profileWrite anyHeader 0 (List.replicate 12 0)).wellFormed = true ∧
    (Instr.lineLinkLoss none).wellFormed = true ∧ (Instr.lineFrameReceived [0]).wellFormed = true := by decide +kernel

/-! ## Check values and layouts -/

theorem test_no_word_spells_a_command :
    decodeTableWord 32 0xFFFFFFFF = none ∧ State.reset.withFetchWord 16 7 = State.reset := by decide +kernel

/-- The nine bytes 31 to 39 hex, the characters 1 to 9. -/
def digits : List Byte := [0x31, 0x32, 0x33, 0x34, 0x35, 0x36, 0x37, 0x38, 0x39]

theorem test_signature_check_values :
    signatureOf [0x00] = 0xE1F0#16 ∧ signatureOf [0x41] = 0xB915#16 ∧ signatureOf digits = 0x29B1#16 := by
  decide +kernel

theorem test_fcs_check_value : fcs digits = 0xCBF43926#32 ∧ fcsBytes digits = [0x26, 0x39, 0xF4, 0xCB] := by
  decide +kernel

theorem test_unit_address_of_straps_2A :
    (State.reset.setUnitStraps 0x2A).unitAddress = 0x0A3C71E5202A#48 := by decide +kernel

/-! ## States and frames of the tests -/

def manager : Mac := 0x0020A4110701#48
def otherManager : Mac := 0x0020A4110702#48
def stationAddress : Mac := 0x0020A411073C#48

/-- The response to the BIND that formed `session`. -/
def bindReply : CtlFrame :=
  { dst := manager, src := Config.unitBase, kind := 2, code := 2, status := 0, seq := 0xFFFF, tag := 1, body := [0, 60] }

/-- A session at the wrap of its sequence. -/
def session : Binding := { manager := manager, lease := 60, remaining := 60000, lastSeq := 0xFFFF, cached := bindReply }

/-- The reset state under a session. -/
def bound : State := State.reset.setBinding (some session)

/-- The bound manager's next command. -/
def order : CmdHeader := { port := .line, source := manager, seq := 0, tag := 5 }
/-- A command of another manager. -/
def foreign : CmdHeader := { port := .line, source := otherManager, seq := 0, tag := 5 }
/-- A command of the station. -/
def call : CmdHeader := { port := .station, source := stationAddress, seq := 3, tag := 9 }

/-- A frame of 64 bytes to the station address, of type 88B6 hex, with 01 at offset 14. -/
def plain : Frame :=
  closed (macBytes stationAddress ++ macBytes otherManager ++ [0x88, 0xB6, 0x01] ++ List.replicate 45 0)

/-- A descriptor of `plain`. -/
def held (serial : Word16) (c : HoldClass) (st : DescState) : Descriptor :=
  { serial := serial, cls := c, origin := .byDefault, arrival := 0, state := st, frame := plain }

/-- A state with these frames held, their accounts beside them. -/
def holding (s : State) (list : List Descriptor) : State :=
  let count := fun c => (list.filter fun d => d.cls == c).length
  let account := fun c => { Account.zero with used := count c, held := count c, admitted := BitVec.ofNat 32 (count c) }
  s.setHold
    { s.hold with
      list := list
      freeBlocks := 384 - list.length
      nextSerial := BitVec.ofNat 16 list.length
      accounts := { c0 := account .c0, c1 := account .c1, c2 := account .c2, c3 := account .c3, b := account .b } }

/-- A state under the built-in profile in a station state. -/
def inState (st : StationState) (s : State) : State := s.setCtx { s.ctx with station := st, active := .builtIn }

def asleep : State := inState .asleep bound
/-- DOZING with one frame of L→S transit in transmission. -/
def dozing : State :=
  ((inState .dozing bound).setTransit { bound.transit with toStation := [plain] }).setStation
    { bound.station with tx := some .transit }
/-- RELEASING with two frames held and the release delay running. -/
def releasing : State :=
  (holding (inState .releasing bound) [held 0 .c0 .held, held 1 .c1 .held]).setReleaseTimer (.running 100)
/-- RELEASING with the first of two frames in transmission. -/
def delivering : State :=
  ((holding (inState .releasing bound) [held 0 .c0 .delivering, held 1 .c1 .held]).setReleaseTimer .expired).setStation
    { bound.station with tx := some .release }
/-- WAKING in an attempt, with the timers as given. -/
def waking (attempt : Nat) (phase : Phase) (attemptTimer pulseTimer : Timer) : State :=
  (inState .waking bound).setWake
    { line := .released, phase := phase, attempt := attempt
      terms := some { mode := .level, timeout := 10, retries := 2 }
      attemptTimer := attemptTimer, pulseTimer := pulseTimer }
def unresponsive : State :=
  (inState .unresponsive bound).setWake { bound.wake with attempt := 3 }

/-- A notice of the test's queue. -/
def notice (serial : Word16) (transmissions : Nat) : Notice :=
  { serial := serial, body := .holdPressure .c2 1 0, time := 7, station := .asleep, transmissions := transmissions }

/-- A state with these notices queued and this timer. -/
def noticing (s : State) (queue : List Notice) (timer : Timer) : State :=
  s.setNotices { s.notices with queue := queue, timer := timer }

/-- A state with `n` responses in the line control queue, the first in transmission. -/
def queued (n : Nat) (s : State) : State :=
  s.setLine { s.line with control := List.replicate n bindReply, tx := some .control }

/-! ## Checks that the hypotheses of the statements hold -/

/-- A Bool that says: settled, and the port of the header judges. -/
def judges (s : State) (h : CmdHeader) : Bool :=
  s.nothingDue && s.pins.resetn && s.linkUp h.port && s.responder.resetPending.isNone && !groupBit h.source &&
    decide ((s.controlQueue h.port).length < controlCap h.port)

theorem judges_sound {s : State} {h : CmdHeader} (e : judges s h = true) : s.Settled ∧ s.Judges h := by
  simp only [judges, Bool.and_eq_true, Bool.not_eq_eq_eq_not, Bool.not_true, decide_eq_true_eq,
    Option.isNone_iff_eq_none] at e
  exact ⟨fun _ => e.1.1.1.1.1, ⟨⟨e.1.1.1.1.2, e.1.1.1.2⟩, e.1.1.2, e.1.2, e.2⟩⟩

/-- A Bool that says: settled, and the command is executed under the session. -/
def executes (s : State) (h : CmdHeader) (b : Binding) : Bool :=
  judges s h && (h.port == .line) && (s.responder.binding == some b) && (b.manager == h.source) &&
    (h.seq == b.lastSeq + 1)

theorem executes_sound {s : State} {h : CmdHeader} {b : Binding} (e : executes s h b = true) :
    s.Settled ∧ s.Executes h b := by
  simp only [executes, Bool.and_eq_true, beq_iff_eq] at e
  obtain ⟨⟨⟨⟨e1, e2⟩, e3⟩, e4⟩, e5⟩ := e
  exact ⟨(judges_sound e1).1, ⟨(judges_sound e1).2, e2, e3, e4, e5⟩⟩

/-- A Bool that says: settled, and the station's command is executed. -/
def serves (s : State) (h : CmdHeader) : Bool := judges s h && (h.port == .station)

theorem serves_sound {s : State} {h : CmdHeader} (e : serves s h = true) : s.Settled ∧ s.Serves h := by
  simp only [serves, Bool.and_eq_true, beq_iff_eq] at e
  exact ⟨(judges_sound e.1).1, ⟨(judges_sound e.1).2, e.2⟩⟩

/-- A Bool that says: settled, and the port receives. -/
def receives (s : State) (p : Port) : Bool := s.nothingDue && s.pins.resetn && s.linkUp p

theorem receives_sound {s : State} {p : Port} (e : receives s p = true) : s.Settled ∧ s.Receives p := by
  simp only [receives, Bool.and_eq_true] at e
  exact ⟨fun _ => e.1.1, ⟨e.1.2, e.2⟩⟩

/-- A Bool that says: the queues and tables have their capacities. -/
def sized (s : State) : Bool :=
  decide (s.line.control.length ≤ 4) && decide (s.station.control.length ≤ 2) &&
    decide (s.answers.queue.length ≤ 4) && decide (s.transit.toStation.length ≤ 4) &&
    decide (s.transit.toLine.length ≤ 4) && decide (s.rules.active.length = 32) &&
    decide (s.rules.staged.length = 32) && decide (s.ctx.profiles.length = 4) &&
    decide (s.answers.templates.length = 16)

theorem sized_sound {s : State} (e : sized s = true) : s.Capacities := by
  simp only [sized, Bool.and_eq_true, decide_eq_true_eq] at e
  obtain ⟨⟨⟨⟨⟨⟨⟨⟨e1, e2⟩, e3⟩, e4⟩, e5⟩, e6⟩, e7⟩, e8⟩, e9⟩ := e
  exact ⟨e1, e2, e3, e4, e5, e6, e7, e8, e9⟩

/-- The next state of a command, the state itself where it answers none. -/
def after (i : Instr) (s : State) : State :=
  match exec i s with
  | .next t => t
  | .fault _ => s
  | .refused _ => s

/-- The status and the body of the last response that a port's control queue holds. -/
def lastReply (s : State) : Option (Byte × List Byte) := s.line.control.getLast?.map fun c => (c.status, c.body)
def lastStationReply (s : State) : Option (Byte × List Byte) :=
  s.station.control.getLast?.map fun c => (c.status, c.body)

theorem test_states_are_settled :
    executes bound order session = true ∧ executes asleep order session = true ∧
    executes dozing order session = true ∧ executes releasing order session = true ∧
    executes delivering order session = true ∧
    executes (waking 1 .attempt (.running 5) .stopped) order session = true ∧
    executes unresponsive order session = true ∧ sized bound = true := by decide +kernel

theorem test_plain_is_traffic :
    plain.length = 64 ∧ intakeOk plain = true ∧ State.reset.isControl plain = false := by decide +kernel

/-! ## Hypotheses: the step, the resets and the pins -/

theorem test_hyp_StepTakesTheFrontCommand :
    (State.reset.setPending [.drainEnd, .releaseEnd]).pending = .drainEnd :: [.releaseEnd] := rfl

/-- RESETN low. -/
def lowered : State := bound.setPins { bound.pins with resetn := false }

/-- Every timer, the lease and the lifetimes of two frames due, in an attempt. -/
def allDue : State :=
  ((((releasing.setReleaseTimer (.running 0)).setTime 600000).setWake
    { releasing.wake with phase := .attempt, attemptTimer := .running 0, pulseTimer := .running 0 }).setBinding
    (some { session with remaining := 0 })).setNotices { releasing.notices with timer := .running 0 }

theorem test_hyp_EmptyQueuePassesOneMillisecond :
    (bound.pending = [] ∧ bound.pins.resetn = true ∧ lowered.pending = [] ∧ lowered.pins.resetn = false) ∧
    allDue.hold.Ordered ∧
    allDue.dueEvents = [.pulseTimerExpiry, .attemptTimerExpiry, .releaseDelayExpiry, .leaseExpiry,
      .retransmitTimerExpiry, .expiry 0, .expiry 1] ∧
    (allDue.setTime 599999).dueEvents.length = 5 ∧
    (allDue.setWake { allDue.wake with phase := .rest }).dueEvents[1]? = some .restExpiry := by
  refine ⟨⟨rfl, rfl, rfl, rfl⟩, ⟨?_, ?_, ?_, by decide +kernel⟩, by decide +kernel, by decide +kernel, by decide +kernel⟩
  all_goals
    intro d rest e
    cases e
    decide +kernel

theorem test_hyp_ResetnLowStopsThePart :
    delivering.pins.resetn = true ∧ lowered.pins.resetn = false ∧
    (∀ straps l r, Instr.lineLinkRegain ≠ .hardwareReset straps l r) ∧ plain ≠ [] ∧
    delivering.hold.list = [] ++ held 0 .c0 .delivering :: [held 1 .c1 .held] ∧
    (∀ x ∈ releasing.hold.list, x.state = .held) ∧ bound.line.tx = none ∧ bound.station.tx = none ∧
    delivering.station.tx = some .release ∧ dozing.station.tx = some .transit :=
  ⟨rfl, rfl, fun _ _ _ e => (nomatch e), by decide +kernel, rfl, by decide +kernel, rfl, rfl, rfl, rfl⟩

/-! ## Hypotheses: the management session -/

theorem test_hyp_IdentifyAnswersAndChangesNothing :
    (State.reset.Settled ∧ State.reset.Judges anyHeader) ∧ (bound.Settled ∧ bound.Judges call) ∧
    State.reset.responder.binding = none ∧ bound.responder.binding = some session :=
  ⟨judges_sound (by decide +kernel), judges_sound (by decide +kernel), rfl, rfl⟩

theorem test_hyp_BindFormsOrRemakesTheBinding :
    (State.reset.Settled ∧ State.reset.Judges order) ∧ order.port = .line ∧
    (∀ b, State.reset.responder.binding = some b → b.manager = order.source) ∧
    (bound.Settled ∧ bound.Judges order) ∧ (∀ b, bound.responder.binding = some b → b.manager = order.source) ∧
    (5 ≤ (5#16).toNat ∧ (600#16).toNat ≤ 600) ∧
    (1 ≤ (1#16).toNat ∧ (4#16).toNat ≤ 4 ∧ 600 < (601#16).toNat) ∧
    (bound.Settled ∧ bound.Judges foreign) ∧ session.manager ≠ foreign.source :=
  ⟨judges_sound (by decide +kernel), rfl, (fun _ e => nomatch e), judges_sound (by decide +kernel),
    fun _ e => by cases e; rfl, by decide, by decide, judges_sound (by decide +kernel), by decide⟩

theorem test_hyp_UnbindEndsTheBinding :
    (bound.Settled ∧ bound.Executes order session) ∧
    ((State.reset.Settled ∧ State.reset.Judges order) ∧ State.reset.responder.binding = none) ∧
    ((bound.Settled ∧ bound.Judges foreign) ∧ session.manager ≠ foreign.source) :=
  ⟨executes_sound (by decide +kernel), ⟨judges_sound (by decide +kernel), rfl⟩,
    judges_sound (by decide +kernel), by decide⟩

theorem test_hyp_StatusReportsThePart :
    (releasing.Settled ∧ releasing.Executes order session) ∧ (byteOf 255).toNat = 255 ∧
    be16 0x1234#16 = [0x12, 0x34] ∧ be32 0x12345678#32 = [0x12, 0x34, 0x56, 0x78] :=
  ⟨executes_sound (by decide +kernel), by decide, by decide, by decide⟩

theorem test_hyp_AcceptedCommandAdvancesTheSession :
    (Instr.ruleStage order 32 0 []).asCommand = some (order, .ruleStage, [32, 0]) ∧
    Cmd.boundOnly .ruleStage = true ∧ Cmd.ruleStage ≠ .unbind ∧ Cmd.lengthOk .ruleStage 2 = true ∧
    bound.Settled ∧ bound.Executes order session :=
  ⟨rfl, rfl, by decide, rfl, executes_sound (by decide +kernel)⟩

/-- A repeat of the last accepted command, and a command out of turn. -/
def again : CmdHeader := { order with seq := 0xFFFF }
def ahead : CmdHeader := { order with seq := 1 }

theorem test_hyp_SequenceAndBindingAreJudged :
    (Instr.wake order).asCommand = some (order, .wake, []) ∧ Cmd.boundOnly .wake = true ∧
    Cmd.lengthOk .wake 0 = true ∧ order.port = .line ∧
    ((State.reset.Settled ∧ State.reset.Judges order) ∧ State.reset.responder.binding = none) ∧
    ((bound.Settled ∧ bound.Judges foreign) ∧ session.manager ≠ foreign.source) ∧
    ((bound.Settled ∧ bound.Judges again) ∧ session.manager = again.source ∧ again.seq = session.lastSeq) ∧
    ((bound.Settled ∧ bound.Judges ahead) ∧ session.manager = ahead.source ∧ ahead.seq ≠ session.lastSeq ∧
      ahead.seq ≠ session.lastSeq + 1) :=
  ⟨rfl, rfl, rfl, rfl, ⟨judges_sound (by decide +kernel), rfl⟩, ⟨judges_sound (by decide +kernel), by decide⟩,
    ⟨judges_sound (by decide +kernel), rfl, rfl⟩, judges_sound (by decide +kernel), rfl, by decide, by decide⟩

/-- A reset pending, its response in transmission. -/
def resetting : State :=
  let reply : CtlFrame := { bindReply with code := 0x7F, body := [] }
  (bound.setResponder { bound.responder with resetPending := some .warm }).setLine
    { bound.line with control := [reply], tx := some .control }

/-- A source with its group bit set. -/
def groupHeader : CmdHeader := { order with source := 0x0120A4110701#48 }

/-- The station control queue full. -/
def stationFull : State :=
  bound.setStation { bound.station with control := [bindReply, bindReply], tx := some .control }

theorem test_hyp_DiscardsBeforeJudging :
    ((Instr.wake order).asCommand = some (order, .wake, []) ∧ (Instr.wake order).wellFormed = true) ∧
    ((resetting.Settled ∧ resetting.Receives .line) ∧ resetting.responder.resetPending.isSome = true) ∧
    ((bound.Settled ∧ bound.Receives .line) ∧ bound.responder.resetPending = none ∧
      groupBit groupHeader.source = true) ∧
    (((queued 4 bound).Settled ∧ (queued 4 bound).Receives .line) ∧
      controlCap .line ≤ ((queued 4 bound).controlQueue .line).length ∧ groupBit order.source = false) ∧
    ((stationFull.Settled ∧ stationFull.Receives .station) ∧
      controlCap .station ≤ (stationFull.controlQueue .station).length ∧ groupBit call.source = false) :=
  ⟨⟨rfl, rfl⟩, ⟨receives_sound (by decide +kernel), rfl⟩, ⟨receives_sound (by decide +kernel), rfl, by decide⟩,
    ⟨receives_sound (by decide +kernel), by decide, by decide⟩, receives_sound (by decide +kernel), by decide,
    by decide⟩

/-- A control frame to the part with this version, kind, code and parameter length, in a frame of 64 bytes. -/
def rawControl (version kind code : Byte) (plen : Nat) : Frame :=
  closed (padTo 60 (macBytes Config.unitBase ++ macBytes manager ++ [0xB5, 0x9E, version, kind, code, 0, 0, 0, 0, 5] ++
    nat16 plen))

/-- The header of `rawControl` as a port reads it. -/
def readsAsOrder (f : Frame) : Bool :=
  intakeOk f && bound.isControl f && (macAt f 6 == manager) && (word16At f 18 == 0) && (word16At f 20 == 5)

theorem test_hyp_ChecksBeforeTheSession :
    (readsAsOrder (rawControl 2 1 1 0) = true ∧ byteAt (rawControl 2 1 1 0) 14 ≠ 1) ∧
    (readsAsOrder (rawControl 1 1 1 37) = true ∧ ¬ 24 + natAt (rawControl 1 1 1 37) 22 2 ≤ 64 - 4) ∧
    (readsAsOrder (rawControl 1 1 1 1025) = true ∧ ¬ natAt (rawControl 1 1 1 1025) 22 2 ≤ 1024) ∧
    (readsAsOrder (rawControl 1 1 0x60 36) = true ∧ natAt (rawControl 1 1 0x60 36) 22 2 = 36 ∧
      Cmd.ofCode 0x60 = none) ∧
    (readsAsOrder (rawControl 1 1 2 1) = true ∧ Cmd.ofCode 2 = some .bind ∧ Cmd.lengthOk .bind 1 = false) ∧
    (readsAsOrder (rawControl 1 3 2 2) = true ∧ Cmd.lengthOk .bind 2 = true ∧ byteAt (rawControl 1 3 2 2) 15 = 3) ∧
    (readsAsOrder (rawControl 1 1 0x51 0) = true ∧ Cmd.ofCode 0x51 = some .resume ∧ Cmd.permitted .resume .line = false) ∧
    judges bound { port := .line, source := manager, seq := 0, tag := 5 } = true := by decide +kernel

theorem test_hyp_RowIsTheFrameOnTheWire :
    (Instr.classWrite order 3 384 1 2).asCommand = some (order, .classWrite, [3, 1, 0x80, 0, 1, 2]) ∧
    (Instr.classWrite order 3 384 1 2).wellFormed = true ∧ bound.unitAddress = Config.unitBase ∧
    14 ≤ plain.length ∧ bound.isControl (macBytes Config.groupAddress ++ macBytes manager ++ [0xB5, 0x9E]) = true ∧
    bound.isControl (macBytes manager ++ macBytes manager ++ [0xB5, 0x9E]) = false := by decide +kernel

/-- The bytes of a CLASS_WRITE's frame, written out field by field from R126 and R145. -/
theorem test_class_write_on_the_wire :
    (commandFrame Config.unitBase order .classWrite [3, 1, 0x80, 0, 1, 2]).take 31 =
      [0x0A, 0x3C, 0x71, 0xE5, 0x20, 0x00, 0x00, 0x20, 0xA4, 0x11, 0x07, 0x01, 0xB5, 0x9E, 1, 1, 0x20, 0, 0, 0, 0, 5,
       0, 6, 3, 1, 0x80, 0, 1, 2, 0] ∧
    (commandFrame Config.unitBase order .classWrite [3, 1, 0x80, 0, 1, 2]).length = 64 ∧
    intakeOk (commandFrame Config.unitBase order .classWrite [3, 1, 0x80, 0, 1, 2]) = true := by decide +kernel

/-! ## Hypotheses: traffic and classification -/

/-- AWAKE with the station link down. -/
def stationDown : State := bound.setStation { bound.station with linkUp := false }
/-- AWAKE with `n` frames of L→S transit, the first in transmission. -/
def transit (n : Nat) : State :=
  (bound.setTransit { bound.transit with toStation := List.replicate n plain }).setStation
    { bound.station with tx := some .transit }
/-- The line link down. -/
def lineDown : State := bound.setLine { bound.line with linkUp := false }
/-- `n` frames of S→L transit, the first in transmission. -/
def transitToLine (n : Nat) : State :=
  (bound.setTransit { bound.transit with toLine := List.replicate n plain }).setLine
    { bound.line with tx := some .transit }

theorem test_hyp_LineTrafficTakesThePathOfTheState :
    (intakeOk plain = true ∧ bound.isControl plain = false) ∧
    ((stationDown.Settled ∧ stationDown.Receives .line) ∧ stationDown.ctx.station = .awake ∧
      stationDown.station.linkUp = false) ∧
    (((transit 4).Settled ∧ (transit 4).Receives .line) ∧ (transit 4).ctx.station = .awake ∧
      (transit 4).station.linkUp = true ∧ 4 ≤ (transit 4).transit.toStation.length) ∧
    (((transit 3).Settled ∧ (transit 3).Receives .line) ∧ (transit 3).transit.toStation.length < 4) ∧
    ((releasing.Settled ∧ releasing.Receives .line) ∧ releasing.ctx.station = .releasing) ∧
    ((dozing.Settled ∧ dozing.Receives .line) ∧ dozing.ctx.station.away = true) ∧
    ((unresponsive.Settled ∧ unresponsive.Receives .line) ∧ unresponsive.ctx.station.away = true) :=
  ⟨by decide +kernel, ⟨receives_sound (by decide +kernel), rfl, rfl⟩,
    ⟨receives_sound (by decide +kernel), rfl, rfl, by decide⟩, ⟨receives_sound (by decide +kernel), by decide⟩,
    ⟨receives_sound (by decide +kernel), rfl⟩, ⟨receives_sound (by decide +kernel), rfl⟩,
    receives_sound (by decide +kernel), rfl⟩

theorem test_hyp_StationTrafficCrossesToTheLine :
    (intakeOk plain = true ∧ bound.isControl plain = false) ∧
    ((lineDown.Settled ∧ lineDown.Receives .station) ∧ lineDown.line.linkUp = false) ∧
    (((transitToLine 4).Settled ∧ (transitToLine 4).Receives .station) ∧ (transitToLine 4).line.linkUp = true ∧
      4 ≤ (transitToLine 4).transit.toLine.length) ∧
    (((transitToLine 3).Settled ∧ (transitToLine 3).Receives .station) ∧
      (transitToLine 3).transit.toLine.length < 4) :=
  ⟨by decide +kernel, ⟨receives_sound (by decide +kernel), rfl⟩,
    ⟨receives_sound (by decide +kernel), rfl, by decide⟩, receives_sound (by decide +kernel), by decide⟩

/-- A frame of 63 bytes with a good FCS, and one of 64 with a bad FCS. -/
def short : Frame := closed (List.replicate 59 0)
def damaged : Frame := List.replicate 64 0

theorem test_hyp_IntakeErrorsStopAtThePort :
    (bound.Settled ∧ bound.Receives .line) ∧ (bound.Settled ∧ bound.Receives .station) ∧
    short.length = 63 ∧ fcsChecks short = true ∧ intakeOk short = false ∧
    damaged.length = 64 ∧ intakeOk damaged = false ∧ intakeOk (closed (List.replicate 60 0)) = true ∧
    intakeOk (List.replicate 1523 0) = false :=
  ⟨receives_sound (by decide +kernel), receives_sound (by decide +kernel), by decide +kernel⟩

/-- Entry 9 of the example in section 2.11, but of set 0: TO_STATION, at least 64 bytes, byte 14 equal to 01. -/
def example9 (d : Disposition) (wake : Bool) : RuleRecord :=
  { sets := 0x1, guard := .toStation, minLength := 64, windowOffset := 14, mask := [true], test := .exactly [0x01],
    disposition := d, wake := wake }

/-- A profile of set 0 with this default disposition. -/
def profile0 (d : DefaultDisposition) : Profile :=
  { sets := 0x1, defaultDisposition := d, wakeMode := .pulse 20, timeout := 5, retries := 2, releaseDelay := 40,
    wakeOnLink := true }

/-- ASLEEP under profile 0 with the station address known and one rule at `index`. -/
def classifying (d : DefaultDisposition) (index : Nat) (r : RuleRecord) : State :=
  (asleep.setCtx
    { asleep.ctx with
      profiles := [some (profile0 d), none, none, none], active := .record 0, address := some stationAddress }).setRules
    { asleep.rules with active := asleep.rules.active.set index { record := some r, count := 0xFFFFFFFF } }

theorem test_hyp_FirstMatchingRuleGoverns :
    let s := classifying .discard 31 (example9 (.hold 2) true)
    (s.rules.active[31]? = some { record := some (example9 (.hold 2) true), count := 0xFFFFFFFF } ∧
      (example9 (.hold 2) true).matchesFrame s.activeProfile.sets (destClass s.ctx.address plain) plain = true ∧
      ∀ (j : Nat) (e : ActiveEntry) (r : RuleRecord), j < 31 → s.rules.active[j]? = some e → e.record = some r →
        r.matchesFrame s.activeProfile.sets (destClass s.ctx.address plain) plain = false) ∧
    (∀ (e : ActiveEntry) (r : RuleRecord), e ∈ asleep.rules.active → e.record = some r →
      r.matchesFrame asleep.activeProfile.sets (destClass asleep.ctx.address plain) plain = false) ∧
    asleep.activeProfile.defaultDisposition = .hold 3 ∧ s.activeProfile.defaultDisposition = .discard := by
  refine ⟨⟨rfl, by decide +kernel, fun j e r hj he hr => ?_⟩, fun e r he hr => ?_, rfl, rfl⟩
  · have all : ∀ j : Fin 31, ((classifying .discard 31 (example9 (.hold 2) true)).rules.active[j.val]?).map
        ActiveEntry.record = some none := by decide +kernel
    have := all ⟨j, hj⟩
    rw [he, Option.map_some, hr] at this
    cases this
  · have all : ∀ e ∈ asleep.rules.active, e.record = none := by decide +kernel
    rw [all e he] at hr
    cases hr

theorem test_hyp_MatchingIsTheFiveConditions :
    (example9 .discard false).windowOffset + (example9 .discard false).mask.length ≤ plain.length ∧
    ({ example9 .discard false with windowOffset := 63 } : RuleRecord).windowOffset + 1 = plain.length ∧
    6 ≤ plain.length ∧ ({ example9 .discard false with windowOffset := 12, mask := [true, false, true] } :
      RuleRecord).offsets = [12, 14] := by decide +kernel

/-- A rule by signature, and its frame with a byte changed outside the selection. -/
def bySignature : RuleRecord := { example9 .discard false with test := .signature (signatureOf [0x01]) }
def plainOther : Frame := plain.set 20 0xFF

theorem test_hyp_TestsJudgeTheSelectedBytes :
    (bySignature.windowOffset + bySignature.mask.length ≤ plain.length ∧
      bySignature.test = .signature (signatureOf [0x01])) ∧
    ((example9 .discard false).test = .exactly [0x01] ∧ [0x01#8].length = (example9 .discard false).offsets.length) ∧
    (bySignature.windowOffset + bySignature.mask.length ≤ plainOther.length ∧ plain ≠ plainOther ∧
      ∀ offset ∈ bySignature.offsets, byteAt plain offset = byteAt plainOther offset) ∧
    ({ bySignature with windowOffset := 12, mask := [true, true] ++ List.replicate 17 false ++ [true] } :
      RuleRecord).windowOffset = 12 := by decide +kernel

/-- A template with these substitutions. -/
def templateOf (subs : List Substitution) : Template := { body := List.replicate 60 0x55, substitutions := subs }

/-- ASLEEP with template 3 defined and `n` answers queued, the first in transmission. -/
def answering (t : Template) (n : Nat) (address : Option Mac) : State :=
  ((asleep.setCtx { asleep.ctx with address := address }).setAnswers
    { asleep.answers with templates := asleep.answers.templates.set 3 (some t), queue := List.replicate n plain }).setLine
    { asleep.line with tx := if n = 0 then none else some .answer }

def replyTemplate : Template :=
  templateOf [{ target := 0, source := .triggerSource }, { target := 6, source := .stationAddress },
    { target := 54, source := .unitAddress }, { target := 44, source := .triggerBytes 48 16 }]

theorem test_hyp_CompositionQueuesOrCounts :
    asleep.answers.templates.getD 3 none = none ∧
    ((answering replyTemplate 0 none).answers.templates.getD 3 none = some replyTemplate ∧
      { target := 6, source := .stationAddress } ∈ replyTemplate.substitutions ∧
      (answering replyTemplate 0 none).ctx.address = none) ∧
    ({ target := 0, source := .triggerBytes 49 16 } ∈
      (templateOf [{ target := 0, source := .triggerBytes 49 16 }]).substitutions ∧ plain.length < 49 + 16) ∧
    ((∀ sub ∈ replyTemplate.substitutions,
        (sub.source = .stationAddress → (answering replyTemplate 3 (some stationAddress)).ctx.address ≠ none) ∧
        ∀ off n, sub.source = .triggerBytes off n → off + n ≤ plain.length) ∧
      4 ≤ (answering replyTemplate 4 (some stationAddress)).answers.queue.length ∧
      (answering replyTemplate 3 (some stationAddress)).answers.queue.length < 4 ∧ replyTemplate.Fitting ∧
      12 ≤ plain.length) ∧
    (∃ before sub after, replyTemplate.substitutions = before ++ sub :: after ∧ after ≠ [] ∧ 5 < sub.source.size ∧
      ∀ x ∈ after, sub.target + 5 < x.target ∨ x.target + x.source.size ≤ sub.target + 5) := by
  have len : plain.length = 64 := by decide +kernel
  refine ⟨rfl, ⟨rfl, by decide, rfl⟩, ⟨by decide, by rw [len]; decide⟩, ⟨?_, by decide, by decide, ?_, by rw [len]; decide⟩, ?_⟩
  · intro sub h
    simp only [replyTemplate, templateOf, List.mem_cons, List.not_mem_nil, or_false] at h
    rcases h with rfl | rfl | rfl | rfl <;> simp [answering, len, State.setCtx, State.setAnswers, State.setLine]
  · refine ⟨by decide, by decide, by decide, ?_⟩
    intro s h off n e
    simp only [replyTemplate, templateOf, List.mem_cons, List.not_mem_nil, or_false] at h
    rcases h with rfl | rfl | rfl | rfl <;> simp_all
    omega
  · exact ⟨[], { target := 0, source := .triggerSource }, replyTemplate.substitutions.tail, rfl, by decide, by decide,
      by decide⟩

/-- Two substitutions that overlap in part: the first keeps the bytes that the second does not cover (R104). -/
theorem test_later_substitution_overwrites_in_part :
    ((asleep.substitute plain [{ target := 0, source := .triggerSource }, { target := 4, source := .unitAddress }]
      (List.replicate 60 0x55)).map fun l => l.take 12) =
      some ([0x00, 0x20, 0xA4, 0x11] ++ macBytes Config.unitBase ++ [0x55, 0x55]) := by decide +kernel

/-! ## Hypotheses: the hold store -/

/-- ASLEEP with 96 frames of class 0 held, its quota spent, under a policy. -/
def pressed (p : Policy) : State :=
  let s := holding asleep ((List.range 96).map fun i => held (BitVec.ofNat 16 i) .c0 .held)
  s.setHold { s.hold with configs := s.hold.configs.set .c0 { quota := 96, lifetime := 600, policy := p } }

theorem test_hyp_AdmissionFollowsThePolicy :
    (let h := (holding asleep [held 0 .c0 .held]).hold
     h.list.length < 128 ∧ blocksFor plain.length ≤ h.freeBlocks ∧
      (h.accounts.get .c0).used + blocksFor plain.length ≤ (h.configs.get .c0).quota ∧
      ∀ d rest, h.list = d :: rest → (h.nextSerial - d.serial).toNat ≤ 32767) ∧
    (¬ ((pressed .refuseNew).hold.accounts.get .c0).used + blocksFor plain.length ≤
        ((pressed .refuseNew).hold.configs.get .c0).quota ∧
      ((pressed .refuseNew).hold.configs.get .c0).policy = .refuseNew) ∧
    (¬ ((pressed .wakeOnFull).hold.accounts.get .c0).used + blocksFor plain.length ≤
        ((pressed .wakeOnFull).hold.configs.get .c0).quota ∧
      ((pressed .wakeOnFull).hold.configs.get .c0).policy = .wakeOnFull) := by
  have len : plain.length = 64 := by decide +kernel
  rw [len]
  refine ⟨⟨by decide, by decide, by decide, ?_⟩, ⟨by decide +kernel, rfl⟩, by decide +kernel, rfl⟩
  intro d rest e
  cases e
  decide

/-- The store of `pressed` after `k` evictions. -/
def evicted (s : State) (k : Nat) : HoldStore :=
  (fun h => h.removeFirst (Descriptor.evictable .c0) .evicted)^[k] s.hold

theorem test_hyp_EvictionTakesTheFewestOldest :
    (((pressed .evictOldest).hold.configs.get .c0).policy = .evictOldest ∧
      (1 : Nat) ≤ ((pressed .evictOldest).hold.list.filter fun d => d.state == .held && d.cls == .c0).length ∧
      (evicted (pressed .evictOldest) 1).fits .c0 (blocksFor 64) = true ∧
      ∀ j, j < 1 → (evicted (pressed .evictOldest) j).fits .c0 (blocksFor 64) = false) ∧
    (let s := bound.setHold
        { bound.hold with configs := bound.hold.configs.set .c0 { quota := 0, lifetime := 0, policy := .evictOldest } }
     (s.hold.configs.get .c0).policy = .evictOldest ∧
      ∀ k, k ≤ (s.hold.list.filter fun d => d.state == .held && d.cls == .c0).length →
        (evicted s k).fits .c0 (blocksFor 64) = false) ∧
    (releasing.hold.list = [] ++ held 0 .c0 .held :: [held 1 .c1 .held] ∧ (held 0 .c0 .held).state = .held ∧
      (held 0 .c0 .held).cls = .c0 ∧
      ∀ x ∈ ([] : List Descriptor), ¬ (x.state = .held ∧ x.cls = .c0)) := by
  refine ⟨⟨rfl, by decide +kernel, by decide +kernel, fun j h => ?_⟩, ⟨rfl, fun k h => ?_⟩, by decide +kernel, rfl, rfl, by simp⟩
  · obtain rfl : j = 0 := by omega
    decide +kernel
  · obtain rfl : k = 0 := Nat.le_zero.1 h
    decide +kernel

/-- `releasing` at a part time. -/
def releasingAt (t : Word32) : State := releasing.setTime t

theorem test_hyp_ExpiryRemovesTheFrame :
    ((releasingAt 600000).Settled ∧ (releasingAt 600000).pins.resetn = true ∧
      (releasingAt 600000).hold.list = [held 0 .c0 .held] ++ held 1 .c1 .held :: [] ∧
      (∀ x ∈ [held 0 .c0 .held], x.serial ≠ (held 1 .c1 .held).serial) ∧
      ((releasingAt 600000).hold.configs.get .c1).lifetime ≠ 0 ∧
      ((releasingAt 600000).hold.configs.get .c1).lifetime * 1000 ≤ ((releasingAt 600000).time - 0).toNat) ∧
    (∀ d ∈ (releasingAt 599999).hold.list, d.serial = 1 → d.state = .delivering ∨
      ((releasingAt 599999).hold.configs.get d.cls).lifetime = 0 ∨
      ((releasingAt 599999).time - d.arrival).toNat < ((releasingAt 599999).hold.configs.get d.cls).lifetime * 1000) :=
  ⟨⟨(receives_sound (p := .line) (by decide +kernel)).1, rfl, by decide +kernel, by decide +kernel, by decide, by decide +kernel⟩,
    by decide +kernel⟩

theorem test_hyp_ClassWriteReplacesAndExpires :
    (releasing.Settled ∧ releasing.Executes order session) ∧
    (4 ≤ (4#8).toNat ∧ (3#8).toNat ≤ 3) ∧ (384 < (385#16).toNat ∧ 3 ≤ (3#8).toNat) ∧
    (HoldClass.c3 ≠ .b ∧ 3#8 = HoldClass.code .c3 ∧ (384#16).toNat ≤ 384 ∧ 2#8 = Policy.code .wakeOnFull) :=
  ⟨executes_sound (by decide +kernel), by decide, by decide, by decide⟩

theorem test_hyp_PurgeRemovesTheSelectedHeld :
    (releasing.Settled ∧ releasing.Executes order session) ∧ (bound.Settled ∧ bound.Executes order session) ∧
    4#8 = HoldClass.code .b ∧ 5 ≤ (5#8).toNat ∧ 3 ≤ (3#8).toNat ∧
    releasing.hold.list = held 0 .c0 .held :: [held 1 .c1 .held] ∧
    ((32767#16) - (held 0 .c0 .held).serial).toNat ≤ 32767 ∧
    32768 ≤ ((32768#16) - (held 0 .c0 .held).serial).toNat ∧ bound.hold.list = [] :=
  ⟨executes_sound (by decide +kernel), executes_sound (by decide +kernel), by decide, by decide, by decide,
    by decide +kernel, by decide, by decide, rfl⟩

theorem test_hyp_HoldStoreReadsAnswer :
    (releasing.Settled ∧ releasing.Executes order session) ∧ (bound.Settled ∧ bound.Executes order session) ∧
    4#8 = HoldClass.code .b ∧ (Origin.rule 31).code = 31 ∧ 5 ≤ (5#8).toNat ∧ 2 ≤ (2#8).toNat ∧ bound.hold.list = [] ∧
    releasing.hold.list = [held 0 .c0 .held] ++ [held 1 .c1 .held] ∧
    ((1#16) - (held 0 .c0 .held).serial).toNat ≤ 32767 ∧
    (∀ d ∈ [held 0 .c0 .held], (d.serial - (held 0 .c0 .held).serial).toNat < ((1#16) - 0).toNat) ∧
    (∀ d tail, [held 1 .c1 .held] = d :: tail → ((1#16) - 0).toNat ≤ (d.serial - 0).toNat) ∧
    32768 ≤ ((32768#16) - (held 0 .c0 .held).serial).toNat :=
  ⟨executes_sound (by decide +kernel), executes_sound (by decide +kernel), by decide, by decide, by decide, by decide,
    rfl, by decide +kernel, by decide, by decide +kernel, fun _ _ e => by cases e; decide, by decide⟩

/-! ## Hypotheses: rules, profiles, templates -/

/-- A rule by signature with the widest window, and one by bytes with the longest list. -/
def widest : RuleRecord :=
  { sets := 0xF, guard := .any, minLength := 1522, windowOffset := 1458, mask := List.replicate 64 true,
    test := .signature 0xFFFF, disposition := .answerHold 15 3, wake := true }
def longest : RuleRecord :=
  { sets := 0x8, guard := .broadcast, minLength := 0, windowOffset := 0,
    mask := List.replicate 48 false ++ List.replicate 16 true, test := .exactly (List.replicate 16 0xAA),
    disposition := .discard, wake := false }

theorem test_records_consistent : widest.Consistent ∧ longest.Consistent :=
  ⟨⟨by decide, by decide, by decide, by decide, by decide, by decide, fun _ e => nomatch e⟩,
    ⟨by decide, by decide, by decide, by decide, by decide, by decide, fun _ e => by cases e; decide⟩⟩

/-- The bytes of `longest`, written out from R144. -/
theorem test_rule_record_written_out :
    longest.bytes = [0x08, 4, 0, 0, 0, 0, 64, 1, 0, 0, 0, 0, 0, 0, 0xFF, 0xFF, 0, 0, 0, 0, 0, 0, 16] ++
      List.replicate 16 0xAA ∧ RuleRecord.read longest.bytes = some longest ∧
    widest.bytes = [0x0F, 0, 0x05, 0xF2, 0x05, 0xB2, 64, 0, 0xFF, 0xFF, 0xFF, 0xFF, 0xFF, 0xFF, 0xFF, 0xFF, 3, 3, 15,
      1, 0xFF, 0xFF, 0] ∧ RuleRecord.read widest.bytes = some widest := by decide +kernel

theorem test_hyp_RuleStageSetsOneEntry :
    (bound.Settled ∧ bound.Executes order session) ∧
    (longest.bytes.length = 39 ∧ widest.bytes.length = 23) ∧
    (32 ≤ (32#8).toNat ∧ (31#8).toNat < 32 ∧ 3 ≤ (3#8).toNat) ∧
    (16 < (byteAt (List.replicate 22 0 ++ [17#8]) 22).toNat ∧
      byteAt (List.replicate 22 0 ++ [1#8]) 7 = 0 ∧ byteAt (List.replicate 22 0 ++ [1#8]) 22 ≠ 0) ∧
    (widest.bytes ++ [0]).length ≠ 23 + (byteAt (widest.bytes ++ [0]) 22).toNat ∧
    RuleRecord.read (List.replicate 23 0) = none ∧
    (RuleRecord.read longest.bytes = some longest ∧ longest.Consistent) :=
  ⟨executes_sound (by decide +kernel), by decide +kernel, by decide, by decide, by decide +kernel, by decide +kernel,
    by decide +kernel, test_records_consistent.2⟩

theorem test_hyp_RuleRecordIsReadBitByBit :
    (widest.Consistent ∧ longest.Consistent) ∧ longest.test = .exactly (List.replicate 16 0xAA) :=
  ⟨test_records_consistent, rfl⟩

/-- A field of an absent part is sent as 0 (R143). -/
theorem test_absent_parts_are_sent_as_zero :
    (longest.bytes.drop 16).take 6 = [0, 0, 0, 0, 0, 0] ∧
    ({ widest with disposition := .answer 15 }.bytes.drop 16).take 3 = [2, 0, 15] ∧
    ({ widest with disposition := .hold 3 }.bytes.drop 16).take 3 = [1, 3, 0] ∧
    ({ target := 0x0102, source := .unitAddress } : Substitution).bytes = [1, 2, 2, 0, 0, 0] := by decide +kernel

/-- Index 4 STAGED_EMPTY and index 6 STAGED_RECORD, as in the example of section 2.11. -/
def staged : State :=
  bound.setRules
    { bound.rules with staged := (bound.rules.staged.set 4 .stagedEmpty).set 6 (.stagedRecord widest) }

theorem test_hyp_RuleDiscardWithdrawsEveryEntry :
    (staged.Settled ∧ staged.Executes order session) ∧ staged.Capacities :=
  ⟨executes_sound (by decide +kernel), sized_sound (by decide +kernel)⟩

theorem test_hyp_RuleCommitAppliesTheStagedTable :
    (staged.Settled ∧ staged.Executes order session) ∧ staged.Capacities ∧
    staged.rules.staged[31]? = some .noChange ∧ staged.rules.staged[6]? = some (.stagedRecord widest) ∧
    staged.rules.staged[4]? = some .stagedEmpty ∧ staged.rules.active[31]? = some ActiveEntry.empty :=
  ⟨executes_sound (by decide +kernel), sized_sound (by decide +kernel), rfl, rfl, rfl, rfl⟩

/-- AWAKE, and ASLEEP, with the active record 3 defined. -/
def profiled (st : StationState) : State :=
  bound.setCtx
    { bound.ctx with station := st, profiles := [none, none, none, some (profile0 .discard)], active := .record 3 }

theorem test_hyp_ProfileWriteDefinesOrUndefines :
    (((profiled .awake).Settled ∧ (profiled .awake).Executes order session) ∧
      ((profiled .asleep).Settled ∧ (profiled .asleep).Executes order session)) ∧
    (profileBytes (some (profile0 .discard))).length = 12 ∧
    (4 ≤ (4#8).toNat ∧ (3#8).toNat < 4 ∧ 2 ≤ (byteAt (2#8 :: List.replicate 11 0) 0).toNat) ∧
    (Profile.read (1#8 :: List.replicate 11 0) = none ∧
      Profile.read (profileBytes (some (profile0 .discard))) = some (profile0 .discard)) ∧
    ((profiled .awake).ctx.active = .record 3 ∧ (3 : Fin 4).val = (3#8).toNat ∧ (3 : Fin 4).val ≠ (2#8).toNat) ∧
    (profiled .asleep).ctx.station ≠ .awake :=
  ⟨⟨executes_sound (by decide +kernel), executes_sound (by decide +kernel)⟩, by decide, by decide, by decide +kernel,
    ⟨rfl, by decide, by decide⟩, by decide⟩

theorem test_hyp_ProfileRecordIsReadByItsLayout :
    (profile0 (.hold 3)).InRange ∧
    ({ profile0 .discard with wakeMode := .pulse 255, timeout := 120, retries := 7, releaseDelay := 1000 } :
      Profile).InRange ∧
    ({ profile0 .discard with wakeMode := .level } : Profile).InRange :=
  ⟨⟨fun _ e => by cases e; decide, by decide, by decide, by decide⟩,
    ⟨fun _ e => by cases e; decide, by decide, by decide, by decide⟩,
    ⟨fun _ e => (nomatch e), by decide, by decide, by decide⟩⟩

/-- The bytes of a profile record, written out from R145. -/
theorem test_profile_record_written_out :
    profileBytes (some (profile0 (.hold 3))) = [1, 1, 1, 3, 0, 20, 5, 2, 0, 40, 1, 0] ∧
    Profile.read [1, 1, 1, 3, 0, 20, 5, 2, 0, 40, 1, 0] = some (profile0 (.hold 3)) := by decide +kernel

/-- The largest template, at the bounds of R101. -/
def largest : Template :=
  { body := List.replicate 256 0
    substitutions := [{ target := 240, source := .triggerBytes 1521 16 }, { target := 250, source := .unitAddress },
      { target := 0, source := .triggerSource }, { target := 255, source := .triggerBytes 0 1 }] }

theorem test_largest_template_fits : largest.Fitting := by
  refine ⟨by decide +kernel, by decide +kernel, by decide +kernel, ?_⟩
  intro s h off n e
  simp only [largest, List.mem_cons, List.not_mem_nil, or_false] at h
  rcases h with rfl | rfl | rfl | rfl <;> simp_all <;> omega

/-- The header and substitutions of `largest`, written out from R146. -/
theorem test_template_written_out :
    largest.bytes.take 27 =
      [1, 0, 4, 0, 240, 3, 16, 0x05, 0xF1, 0, 250, 2, 0, 0, 0, 0, 0, 0, 0, 0, 0, 0, 255, 3, 1, 0, 0] ∧
    largest.bytes.length = 283 ∧ Template.read largest.bytes = some largest := by decide +kernel

theorem test_hyp_TemplateWriteReplacesTheEntry :
    (bound.Settled ∧ bound.Executes order session) ∧ largest.bytes.length = 283 ∧
    (16 ≤ (16#8).toNat ∧ (15#8).toNat < 16 ∧ 2 ≤ (2#8).toNat) ∧
    (4 < (byteAt [0, 60, 5#8] 2).toNat ∧ natAt [0, 59, 0#8] 0 2 < 60 ∧ 256 < natAt [1, 1, 0#8] 0 2) ∧
    (largest.bytes ++ [0]).length ≠ 3 + 6 * 4 + 256 ∧
    Template.read ([0, 60, 1, 0, 55, 0, 0, 0, 0] ++ List.replicate 60 0) = none ∧
    (Template.read largest.bytes = some largest ∧ largest.Fitting) :=
  ⟨executes_sound (by decide +kernel), by decide +kernel, by decide, by decide, by decide +kernel, by decide +kernel,
    by decide +kernel, test_largest_template_fits⟩

theorem test_hyp_TemplateIsReadByItsLayout :
    ((byteAt largest.bytes 2).toNat ≤ 4 ∧ 60 ≤ natAt largest.bytes 0 2 ∧ natAt largest.bytes 0 2 ≤ 256 ∧
      largest.bytes.length = 3 + 6 * (byteAt largest.bytes 2).toNat + natAt largest.bytes 0 2) ∧ largest.Fitting ∧
    ∃ (i : Nat) (x : Substitution), replyTemplate.substitutions[i]? = some x ∧
      ∀ off n, x.source ≠ .triggerBytes off n :=
  ⟨by decide +kernel, test_largest_template_fits, 2, _, rfl, fun _ _ e => (nomatch e)⟩

/-- Each table with one entry defined at its last index. -/
def tabled : State :=
  ((staged.setRules
    { staged.rules with active := staged.rules.active.set 31 { record := some longest, count := 9 } }).setCtx
    { bound.ctx with profiles := [none, none, none, some (profile0 .discard)] }).setAnswers
    { bound.answers with templates := bound.answers.templates.set 15 (some largest) }

theorem test_hyp_TableReadsAnswerTheEntry :
    (tabled.Settled ∧ tabled.Executes order session) ∧ tabled.Capacities ∧
    (32 ≤ (32#8).toNat ∧ (31#8).toNat < 32 ∧ 2 ≤ (2#8).toNat ∧ 4 ≤ (4#8).toNat ∧ 16 ≤ (16#8).toNat) ∧
    tabled.rules.active[31]? = some { record := some longest, count := 9 } ∧
    tabled.rules.active[30]? = some ActiveEntry.empty ∧ tabled.rules.staged[5]? = some .noChange ∧
    tabled.rules.staged[6]? = some (.stagedRecord widest) ∧ tabled.rules.staged[4]? = some .stagedEmpty ∧
    tabled.ctx.profiles[3]? = some (some (profile0 .discard)) ∧ tabled.ctx.profiles[2]? = some none ∧
    tabled.answers.templates[14]? = some none ∧ tabled.answers.templates[15]? = some (some largest) :=
  ⟨executes_sound (by decide +kernel), sized_sound (by decide +kernel), by decide, rfl, rfl, rfl, rfl, rfl, rfl, rfl,
    rfl, rfl⟩

theorem test_hyp_CountersReadReportsAndClears :
    (tabled.Settled ∧ tabled.Executes order session) ∧ tabled.Capacities ∧ 4 ≤ (4#8).toNat ∧ 2 ≤ (2#8).toNat :=
  ⟨executes_sound (by decide +kernel), sized_sound (by decide +kernel), by decide, by decide⟩

/-! ## Hypotheses: waking the station -/

theorem test_hyp_WakeDecisionFollowsTheState :
    (∃ (i : Fin 4) (p : Profile), (profiled .asleep).ctx.active = .record i ∧
      (profiled .asleep).ctx.profiles[i.val]? = some (some p) ∧ (profiled .asleep).activeProfile = p) ∧
    asleep.ctx.active = .builtIn ∧ bound.ctx.active = .none ∧
    (profiled .asleep).activeProfile.wakeMode = .pulse 20 ∧ asleep.activeProfile.wakeMode = .level ∧
    bound.ctx.station = .awake ∧ releasing.ctx.station = .releasing ∧ dozing.ctx.station = .dozing ∧
    asleep.ctx.station = .asleep ∧ unresponsive.ctx.station = .unresponsive ∧ Cause.ruleWake ≠ .managerWake :=
  ⟨⟨_, _, rfl, rfl, rfl⟩, by decide +kernel⟩

theorem test_hyp_WakeCommandIsTheManagersDecision :
    ((bound.Settled ∧ bound.Executes order session) ∧ bound.ctx.station = .awake) ∧
    ((releasing.Settled ∧ releasing.Executes order session) ∧ releasing.ctx.station = .releasing) ∧
    ((dozing.Settled ∧ dozing.Executes order session) ∧ dozing.ctx.station = .dozing) ∧
    ((asleep.Settled ∧ asleep.Executes order session) ∧ asleep.ctx.station = .asleep) ∧
    ((unresponsive.Settled ∧ unresponsive.Executes order session) ∧ unresponsive.ctx.station = .unresponsive) :=
  ⟨⟨executes_sound (by decide +kernel), rfl⟩, ⟨executes_sound (by decide +kernel), rfl⟩,
    ⟨executes_sound (by decide +kernel), rfl⟩, ⟨executes_sound (by decide +kernel), rfl⟩,
    executes_sound (by decide +kernel), rfl⟩

/-- Attempt 2 of 3 and attempt 3 of 3 at their timeouts, a pulse at its end, a rest at its end. -/
def attemptOver (n : Nat) : State := waking n .attempt (.running 0) .stopped
def pulseOver : State := waking 1 .attempt (.running 9) (.running 0)
def restOver : State := waking 7 .rest (.running 0) .stopped

theorem test_hyp_WakeTimersDriveTheSequence :
    (pulseOver.Settled ∧ pulseOver.pins.resetn = true ∧ pulseOver.wake.pulseTimer = .running 0) ∧
    ((attemptOver 2).Settled ∧ (attemptOver 2).wake.attemptTimer = .running 0 ∧
      (attemptOver 2).wake.phase = .attempt ∧
      (attemptOver 2).wake.terms = some { mode := .level, timeout := 10, retries := 2 } ∧
      (attemptOver 2).wake.attempt < 1 + 2) ∧
    ((attemptOver 3).Settled ∧ 1 + 2 ≤ (attemptOver 3).wake.attempt) ∧
    (restOver.Settled ∧ restOver.wake.attemptTimer = .running 0 ∧ restOver.wake.phase = .rest) ∧
    (bound.wake.pulseTimer ≠ .running 0 ∧ bound.wake.attemptTimer ≠ .running 0 ∧ restOver.wake.phase ≠ .attempt ∧
      (attemptOver 2).wake.phase ≠ .rest) :=
  ⟨⟨(receives_sound (p := .line) (by decide +kernel)).1, rfl, rfl⟩,
    ⟨(receives_sound (p := .line) (by decide +kernel)).1, rfl, rfl, rfl, by decide⟩,
    ⟨(receives_sound (p := .line) (by decide +kernel)).1, by decide⟩,
    ⟨(receives_sound (p := .line) (by decide +kernel)).1, rfl, rfl⟩, by decide, by decide, by decide, by decide⟩

/-! ## Hypotheses: notices -/

/-- Record 7 of class 2 transmitted and record 8 of class 2 not, as in the example of section 10.8. -/
def gathering : State := noticing bound [notice 7 1, notice 8 0] (.running 2000)

theorem test_hyp_RaiseIsSettledInFourCases :
    (gathering.notices.mask.getLsbD 0 = false ∧ gathering.notices.mask.getLsbD 2 = true) ∧
    ((∀ c r e, NoticeBody.wakeFailed 3 7 ≠ .holdPressure c r e) ∧ gathering.notices.mask.getLsbD 1 = true) ∧
    (∀ n ∈ gathering.notices.queue, n.transmissions = 0 → ∀ r' e', n.body ≠ .holdPressure .c1 r' e') ∧
    (gathering.notices.queue = [notice 7 1] ++ notice 8 0 :: [] ∧ (notice 8 0).body = .holdPressure .c2 1 0 ∧
      (notice 8 0).transmissions = 0 ∧
      ∀ x ∈ [notice 7 1], x.transmissions = 0 → ∀ r'' e'', x.body ≠ .holdPressure .c2 r'' e'') ∧
    8 ≤ (List.replicate 8 (notice 7 1)).length := by
  refine ⟨by decide +kernel, ⟨fun _ _ _ e => (nomatch e), by decide +kernel⟩, ?_, ⟨rfl, rfl, rfl, ?_⟩, by decide⟩
  · intro n h _ r e
    rcases List.mem_cons.1 h with rfl | h
    · exact fun x => nomatch x
    · obtain rfl := List.mem_singleton.1 h
      exact fun x => nomatch x
  · intro x h t
    obtain rfl := List.mem_singleton.1 h
    exact absurd t (by decide)

theorem test_hyp_NoticeCommandsActOnTheUnit :
    ((gathering.Settled ∧ gathering.Executes order session) ∧ gathering.notices.queue = notice 7 1 :: [notice 8 0] ∧
      (notice 7 1).serial = 7 ∧ 1 ≤ (notice 7 1).transmissions ∧ (notice 7 1).serial ≠ 8) ∧
    ((queued 3 (noticing bound [notice 7 0] (.running 5))).Settled ∧
      (queued 3 (noticing bound [notice 7 0] (.running 5))).Executes order session ∧
      (notice 7 0).transmissions = 0) ∧
    bound.notices.queue = [] ∧ (15#8).toNat < 16 ∧ 16 ≤ (16#8).toNat :=
  ⟨⟨executes_sound (by decide +kernel), rfl, rfl, by decide, by decide⟩,
    ⟨(executes_sound (b := session) (h := order) (by decide +kernel)).1, (executes_sound (by decide +kernel)).2, rfl⟩,
    rfl, by decide, by decide⟩

/-- The lease run out. -/
def leaseOver : State := bound.setBinding (some { session with remaining := 0 })

theorem test_hyp_NoticesAreSentUnderTheLease :
    (let s := queued 3 (noticing bound [notice 7 3] .stopped)
     s.pins.resetn = true ∧ s.notices.queue = notice 7 3 :: [] ∧ (notice 7 3).transmissions < 4 ∧
      s.responder.binding = some session ∧ s.notices.timer = .stopped ∧ s.line.control.length < 4 ∧
      s.line.linkUp = true) ∧
    (noticing lineDown [notice 7 0] .stopped).line.linkUp = false ∧
    (bound.notices.queue = [] ∧ 4 ≤ (notice 7 4).transmissions ∧ State.reset.responder.binding = none ∧
      (noticing bound [notice 7 3] (.running 0)).notices.timer ≠ .stopped ∧
      4 ≤ (queued 4 (noticing bound [notice 7 3] .stopped)).line.control.length) ∧
    ((noticing bound [notice 7 3] (.running 0)).Settled ∧
      (noticing bound [notice 7 3] (.running 0)).notices.timer = .running 0) ∧
    ((noticing bound [notice 7 4, notice 8 0] (.running 0)).Settled ∧ 4 ≤ (notice 7 4).transmissions) ∧
    (leaseOver.Settled ∧ leaseOver.pins.resetn = true ∧
      leaseOver.responder.binding = some { session with remaining := 0 }) ∧
    bound.notices.timer ≠ .running 0 ∧ (∀ b, bound.responder.binding = some b → b.remaining ≠ 0) :=
  ⟨by decide +kernel, rfl, by decide +kernel, ⟨(receives_sound (p := .line) (by decide +kernel)).1, rfl⟩,
    ⟨(receives_sound (p := .line) (by decide +kernel)).1, by decide⟩,
    ⟨(receives_sound (p := .line) (by decide +kernel)).1, rfl, rfl⟩, by decide, fun _ e => by cases e; decide⟩

/-! ## Hypotheses: resets by command -/

theorem test_hyp_ResetCommandWaitsForItsResponse :
    (releasing.Settled ∧ releasing.Executes order session) ∧ 2 ≤ (2#8).toNat :=
  ⟨executes_sound (by decide +kernel), by decide⟩

/-- A COLD reset pending, its response in transmission; and a WARM one whose response has left. -/
def resettingCold : State := resetting.setResponder { resetting.responder with resetPending := some .cold }
def resetReady : State := (inState .asleep resetting).setLine { bound.line with control := [] }

theorem test_hyp_ResetTakesEffectWithItsResponse :
    (resetting.Settled ∧ resetting.line.tx = some .control ∧ resetting.responder.resetPending = some .warm ∧
      ∃ r, resetting.line.control = r :: [] ∧ r.isResetResponse = true) ∧
    (resettingCold.Settled ∧ resettingCold.responder.resetPending = some .cold) ∧
    (resetReady.pins.resetn = true ∧ (∀ c ∈ resetReady.line.control, c.isResetResponse = false) ∧
      resetReady.responder.resetPending = some .warm) ∧ bound.responder.resetPending = none ∧
    (∃ c ∈ resetting.line.control, c.isResetResponse = true) :=
  ⟨⟨(receives_sound (p := .line) (by decide +kernel)).1, rfl, rfl, _, rfl, by decide⟩,
    ⟨(receives_sound (p := .line) (by decide +kernel)).1, rfl⟩, ⟨rfl, by simp [resetReady, State.setLine], rfl⟩,
    rfl, by decide +kernel⟩

theorem test_hyp_ResetOutcomesAreThoseOfTheTable :
    bound.ctx.station = .awake ∧ releasing.ctx.station ≠ .awake ∧ delivering.station.tx = some .release := by
  decide +kernel

/-! ## Hypotheses: the station's commands -/

/-- The record 0 defined in a state, with the station idle. -/
def defined0 (s : State) : State := s.setCtx { s.ctx with profiles := [some (profile0 .discard), none, none, none] }

/-- RELEASING with L→S transit in transmission. -/
def releasingTransit : State :=
  (releasing.setTransit { bound.transit with toStation := [plain] }).setStation { bound.station with tx := some .transit }

theorem test_hyp_DozeMovesTheStation :
    ((bound.Settled ∧ bound.Serves call) ∧ 4 ≤ (4#8).toNat ∧ (3#8).toNat = (3 : Fin 4).val ∧
      bound.ctx.profiles.getD 3 none = none) ∧
    ((defined0 bound).Settled ∧ (defined0 bound).Serves call) ∧
    ((defined0 (transit 1)).Settled ∧ (defined0 (transit 1)).Serves call) ∧
    ((defined0 releasing).Settled ∧ (defined0 releasing).Serves call) ∧
    ((defined0 releasingTransit).Settled ∧ (defined0 releasingTransit).Serves call) ∧
    ((defined0 delivering).Settled ∧ (defined0 delivering).Serves call) ∧
    ((defined0 dozing).Settled ∧ (defined0 dozing).Serves call) ∧
    ((defined0 asleep).Settled ∧ (defined0 asleep).Serves call) ∧
    ((defined0 (attemptOver 2)).Settled ∧ (defined0 (attemptOver 2)).Serves call) ∧
    ((defined0 unresponsive).Settled ∧ (defined0 unresponsive).Serves call) ∧
    (defined0 bound).ctx.profiles.getD 0 none = some (profile0 .discard) ∧
    (transit 1).transit.toStation ≠ [] ∧ releasing.transit.toStation = [] ∧ releasing.delivering = none ∧
    delivering.delivering ≠ none :=
  ⟨⟨serves_sound (by decide +kernel), by decide, by decide, rfl⟩, serves_sound (by decide +kernel),
    serves_sound (by decide +kernel), serves_sound (by decide +kernel), serves_sound (by decide +kernel),
    serves_sound (by decide +kernel), serves_sound (by decide +kernel), serves_sound (by decide +kernel),
    serves_sound (by decide +kernel), serves_sound (by decide +kernel), rfl, by simp [transit, State.setTransit, State.setStation],
    rfl, rfl, by decide +kernel⟩

/-- ASLEEP with two frames held, under profile 3 with a release delay of 40 ms, and under the built-in profile. -/
def asleepHolding : State := holding asleep [held 0 .c0 .held, held 1 .c1 .held]
def asleepDelayed : State := holding (profiled .asleep) [held 0 .c0 .held]

theorem test_hyp_ResumeEndsTheSleep :
    ((asleep.Settled ∧ asleep.Serves call) ∧ asleep.ctx.station.away = true ∧ asleep.hold.list = []) ∧
    ((asleepDelayed.Settled ∧ asleepDelayed.Serves call) ∧ asleepDelayed.hold.list ≠ [] ∧
      asleepDelayed.activeProfile.releaseDelay = 39 + 1) ∧
    ((asleepHolding.Settled ∧ asleepHolding.Serves call) ∧ asleepHolding.activeProfile.releaseDelay = 0) ∧
    ((releasing.Settled ∧ releasing.Serves call) ∧ releasing.ctx.station.away = false) :=
  ⟨⟨serves_sound (by decide +kernel), rfl, rfl⟩,
    ⟨serves_sound (by decide +kernel), by simp [asleepDelayed, holding, State.setHold], rfl⟩,
    ⟨serves_sound (by decide +kernel), rfl⟩, serves_sound (by decide +kernel), rfl⟩

/-! ## Hypotheses: the part's own steps, transmissions and links

The states in which one of the part's own steps is outstanding are those inside an event. -/

/-- DOZING drained, and the same with the wake pending flag set. -/
def drained (pending : Bool) : State :=
  (inState .dozing bound).setCtx { (inState .dozing bound).ctx with wakePending := pending }

theorem test_hyp_ReleaseAndDrainSteps :
    ((drained false).pins.resetn = true ∧ (drained false).ctx.station = .dozing ∧
      (drained false).transit.toStation = [] ∧ (drained false).delivering = none ∧
      (drained true).ctx.wakePending = true) ∧
    ((inState .releasing bound).ctx.station = .releasing ∧ (inState .releasing bound).hold.list = []) ∧
    ((releasing.setReleaseTimer .expired).hold.list = held 0 .c0 .held :: [held 1 .c1 .held] ∧
      (releasing.setReleaseTimer .expired).delivering = none ∧ releasing.transit.toStation = []) ∧
    (releasing.setReleaseTimer (.running 0)).releaseTimer = .running 0 ∧
    dozing.transit.toStation ≠ [] ∧ delivering.delivering ≠ none ∧ bound.releaseTimer ≠ .expired :=
  ⟨⟨rfl, rfl, rfl, rfl, rfl⟩, ⟨rfl, rfl⟩, ⟨rfl, rfl, rfl⟩, rfl, by simp [dozing, State.setTransit, State.setStation],
    by decide +kernel, by decide⟩

/-- The line port idle with something in each of its queues, or in the last of them alone. -/
def lineWaiting (control answers transit : Bool) : State :=
  ((bound.setLine { bound.line with control := if control then [bindReply] else [] }).setAnswers
    { bound.answers with queue := if answers then [plain] else [] }).setTransit
    { bound.transit with toLine := if transit then [plain] else [] }

/-- The station port idle likewise. -/
def stationWaiting (control release transit : Bool) : State :=
  ((holding (inState .releasing bound) [held 0 .c0 (if release then .delivering else .held)]).setStation
    { bound.station with control := if control then [bindReply] else [] }).setTransit
    { bound.transit with toStation := if transit then [plain] else [] }

theorem test_hyp_ArbitersChooseInOrder :
    ((lineWaiting true true true).line.tx = none ∧ (lineWaiting true true true).line.linkUp = true ∧
      (lineWaiting true true true).line.control ≠ [] ∧ (lineWaiting false true true).line.control = [] ∧
      (lineWaiting false true true).answers.queue ≠ [] ∧ (lineWaiting false false true).answers.queue = [] ∧
      (lineWaiting false false true).transit.toLine ≠ []) ∧
    ((stationWaiting true true true).station.tx = none ∧ (stationWaiting true true true).station.linkUp = true ∧
      (stationWaiting true true true).station.control ≠ [] ∧ (stationWaiting false true true).station.control = [] ∧
      (stationWaiting false true true).delivering ≠ none ∧ (stationWaiting false false true).delivering = none ∧
      (stationWaiting false false true).transit.toStation ≠ []) ∧
    ((transitToLine 1).line.tx ≠ none ∧ lineDown.line.linkUp = false ∧ bound.line.control = [] ∧
      delivering.station.tx ≠ none) := by decide +kernel

theorem test_hyp_CompletionTakesTheFrameOut :
    ((queued 1 bound).line.tx = some .control ∧ (queued 1 bound).line.control = bindReply :: []) ∧
    ((answering replyTemplate 2 none).line.tx = some .answer ∧
      (answering replyTemplate 2 none).answers.queue = plain :: [plain]) ∧
    ((transitToLine 2).line.tx = some .transit ∧ (transitToLine 2).transit.toLine = plain :: [plain]) ∧
    (stationFull.station.tx = some .control ∧ stationFull.station.control = bindReply :: [bindReply]) ∧
    (delivering.station.tx = some .release ∧
      delivering.hold.list = [] ++ held 0 .c0 .delivering :: [held 1 .c1 .held] ∧
      (held 0 .c0 .delivering).state = .delivering) ∧
    ((transit 2).station.tx = some .transit ∧ (transit 2).transit.toStation = plain :: [plain]) ∧
    bound.line.tx = none ∧ bound.station.tx = none ∧ bindReply.body.length ≤ 1494 := by decide +kernel

/-- The bytes of a BIND response, written out field by field from R126. -/
theorem test_bind_response_on_the_wire :
    bindReply.wire.take 60 =
      [0x00, 0x20, 0xA4, 0x11, 0x07, 0x01, 0x0A, 0x3C, 0x71, 0xE5, 0x20, 0x00, 0xB5, 0x9E, 1, 2, 2, 0, 0xFF, 0xFF, 0, 1,
       0, 2, 0, 60] ++ List.replicate 34 0 ∧
    bindReply.wire.length = 64 ∧ intakeOk bindReply.wire = true := by decide +kernel

theorem test_hyp_LineLinkEvents :
    ((queued 4 bound).pins.resetn = true ∧ (queued 4 bound).line.linkUp = true ∧ lineDown.line.linkUp = false) ∧
    ((profiled .asleep).ctx.station = .asleep ∧ (profiled .asleep).activeProfile.wakeOnLink = true) ∧
    (unresponsive.ctx.station = .unresponsive ∧ unresponsive.activeProfile.wakeOnLink = false) ∧
    ¬ (releasing.ctx.station = .dozing ∨ releasing.ctx.station = .asleep ∨ releasing.ctx.station = .unresponsive) := by
  decide +kernel

theorem test_hyp_StationLinkEvents :
    ((transit 4).pins.resetn = true ∧ (transit 4).station.linkUp = true ∧ (transit 4).ctx.station = .awake ∧
      delivering.ctx.station = .releasing ∧ dozing.ctx.station = .dozing ∧ dozing.ctx.wakePending = false ∧
      (drained true).ctx.wakePending = true ∧ unresponsive.ctx.station = .unresponsive ∧
      stationDown.station.linkUp = false) ∧
    (∀ d ∈ releasing.hold.list, d.state = .held) ∧
    (delivering.hold.list = held 0 .c0 .delivering :: [held 1 .c1 .held] ∧
      (∀ x ∈ [held 1 .c1 .held], x.state = .held ∧ x.serial ≠ (held 0 .c0 .delivering).serial) ∧
      (delivering.hold.configs.get .c0).lifetime = 600 ∧
      ((599999#32) - (held 0 .c0 .delivering).arrival).toNat < 600 * 1000 ∧
      600 * 1000 ≤ ((600000#32) - (held 0 .c0 .delivering).arrival).toNat) := by decide +kernel

/-! ## Hypotheses: invariants -/

theorem test_hyp_StepsLeaveThePartSettled : ∃ t, State.reset.Settled ∧ step State.reset = .next t :=
  ⟨_, (receives_sound (p := .line) (by decide +kernel)).1, rfl⟩

/-- The example of section 10.8 with the notice serial that follows its records. -/
def reporting : State :=
  noticing (bound.setNotices { bound.notices with serial := 9 }) [notice 7 1, notice 8 0] (.running 2000)

theorem test_hyp_StepsKeepQueuesAndSession :
    ∃ t, reporting.Capacities ∧ reporting.NoticeLaws ∧ reporting.BindingLaws ∧ step reporting = .next t := by
  refine ⟨_, sized_sound (by decide +kernel), ⟨by decide, ?_, by decide, by decide, by decide, ?_⟩,
    ⟨?_, ?_, ?_, ?_⟩, rfl⟩
  · intro i n e
    match i, e with
    | 0, e => cases e; decide
    | 1, e => cases e; decide
  · exact fun _ => ⟨_, _, rfl, by decide⟩
  all_goals intro b e; cases e; decide

theorem test_hyp_StepsKeepTheHoldStore :
    ∃ t, delivering.hold.Accounted ∧ delivering.hold.Ordered ∧ step delivering = .next t := by
  refine ⟨_, ⟨by decide +kernel, by decide +kernel, ?_, ?_, ?_⟩, ⟨?_, ?_, ?_, by decide +kernel⟩, rfl⟩
  iterate 3 intro c; cases c <;> decide +kernel
  all_goals
    intro d rest e
    cases e
    decide +kernel

theorem test_hyp_StepsKeepContextAndWake :
    let s := waking 1 .attempt (.running 5) .stopped
    ∃ t, s.ContextLaws ∧ s.WakeLaws ∧ step s = .next t := by
  refine ⟨_, ⟨by decide +kernel, by decide +kernel, by decide +kernel, by decide +kernel, fun i e => (nomatch e),
    by decide +kernel⟩,
    ⟨by decide, by decide, by decide, by decide, by decide, by decide, by decide, by decide, by decide, ?_, ?_⟩, rfl⟩
  · intro w e
    cases e
    decide
  · intro p h
    simp [waking, inState, bound, State.setWake, State.setCtx, State.setBinding, State.setResponder, State.reset,
      Context.initial, Config.profiles] at h

/-! ## Small steps -/

theorem test_step_hardware_reset :
    (after (.hardwareReset 0x3F false true) (after .resetnAsserted delivering)).unitAddress = 0x0A3C71E5203F#48 ∧
    (after (.hardwareReset 0x3F false true) delivering).line.linkUp = false ∧
    (after (.hardwareReset 0x3F false true) delivering).hold = HoldStore.initial := by decide +kernel

theorem test_step_resetn_cuts_the_release :
    (after .resetnAsserted delivering).station.releaseCut = 1 ∧
    (after .resetnAsserted delivering).station.lastSent.last.map (fun x => (x.ending, x.frame)) =
      some (.cutBadFcs, plain) ∧
    (after .resetnAsserted delivering).station.lastSent.cuts = 1 ∧
    after .lineLinkRegain lowered = lowered := by decide +kernel

theorem test_step_line_link_loss_wakes_under_wake_on_link :
    (after (.lineLinkLoss (some [1])) (profiled .asleep)).ctx.station = .waking ∧
    (after (.lineLinkLoss (some [1])) (profiled .asleep)).line.counters.intakeErrors = 1 ∧
    (after (.lineLinkLoss none) (queued 4 bound)).line.counters.linkDownDiscards = 4 := by decide +kernel

theorem test_step_line_link_regain : (after .lineLinkRegain lineDown).line.linkUp = true := by decide +kernel

theorem test_step_station_link_loss_returns_the_frame :
    (after (.stationLinkLoss none) delivering).ctx.station = .asleep ∧
    (after (.stationLinkLoss none) delivering).ctx.active = .builtIn ∧
    (after (.stationLinkLoss none) delivering).hold.list = [held 0 .c0 .held, held 1 .c1 .held] := by decide +kernel

theorem test_step_station_link_regain : (after .stationLinkRegain stationDown).station.linkUp = true := by
  decide +kernel

theorem test_step_line_frame_is_held_by_default :
    (after (.lineFrameReceived plain) asleep).hold.list =
      [{ held 0 .c3 .held with origin := .byDefault }] ∧
    (after (.lineFrameReceived plain) asleep).rules.unmatchedHeld = 1 := by decide +kernel

theorem test_step_rule_wakes_and_its_count_wraps :
    (after (.lineFrameReceived plain) (classifying .discard 31 (example9 (.hold 2) true))).ctx.station = .waking ∧
    ((after (.lineFrameReceived plain) (classifying .discard 31 (example9 (.hold 2) true))).rules.active[31]?).map
      ActiveEntry.count = some 0 := by decide +kernel

theorem test_step_station_frame_crosses :
    (after (.stationFrameReceived plain) asleep).transit.toLine = [plain] ∧
    (after (.stationFrameReceived plain) asleep).line.tx = some .transit := by decide +kernel

theorem test_step_pulse_ends : (after .pulseTimerExpiry pulseOver).wake.pulseTimer = .stopped := by decide +kernel

theorem test_step_third_attempt_fails :
    (after .attemptTimerExpiry (attemptOver 3)).ctx.station = .unresponsive ∧
    ((after .attemptTimerExpiry (attemptOver 3)).notices.queue.map Notice.body) = [.wakeFailed 3 0] := by decide +kernel

theorem test_step_second_attempt_rests :
    (after .attemptTimerExpiry (attemptOver 2)).wake.attemptTimer = .running 100 := by decide +kernel

theorem test_step_rest_ends : (after .restExpiry restOver).wake.attempt = 8 := by decide +kernel

theorem test_step_drain_ends_in_waking :
    (after .drainEnd (drained true)).ctx.station = .waking ∧ (after .drainEnd (drained false)).ctx.station = .asleep := by
  decide +kernel

theorem test_step_release_delay_expires_and_delivers :
    (after .releaseDelayExpiry (releasing.setReleaseTimer (.running 0))).station.tx = some .release := by decide +kernel

theorem test_step_begin_delivery :
    (after .beginDelivery (releasing.setReleaseTimer .expired)).hold.list =
      [held 0 .c0 .delivering, held 1 .c1 .held] := by decide +kernel

theorem test_step_release_ends : (after .releaseEnd (inState .releasing bound)).ctx.station = .awake := by
  decide +kernel

theorem test_step_expiry :
    (after (.expiry 1) (releasingAt 600000)).hold.list = [held 0 .c0 .held] ∧
    (after (.expiry 1) (releasingAt 599999)).hold.list.length = 2 := by decide +kernel

theorem test_step_line_begins_with_control :
    (after .lineTransmitStart (lineWaiting true true true)).line.tx = some .control ∧
    (after .lineTransmitStart (lineWaiting false true true)).line.tx = some .answer := by decide +kernel

theorem test_step_station_begins_with_control :
    (after .stationTransmitStart (stationWaiting true true true)).station.tx = some .control ∧
    (after .stationTransmitStart (stationWaiting false true true)).station.tx = some .release := by decide +kernel

theorem test_step_line_completes_an_answer :
    (after .lineTransmitComplete (answering replyTemplate 2 none)).answers.sent = 1 ∧
    (after .lineTransmitComplete (answering replyTemplate 2 none)).line.tx = some .answer := by decide +kernel

theorem test_step_station_completes_a_delivery :
    (after .stationTransmitComplete delivering).hold.list = [held 1 .c1 .delivering] ∧
    (after .stationTransmitComplete delivering).hold.accounts.c0.delivered = 1 := by decide +kernel

theorem test_step_reset_takes_effect :
    (after .resetTakesEffect resetReady).ctx.station = .awake ∧
    (after .resetTakesEffect resetReady).responder.binding = some session := by decide +kernel

theorem test_step_cold_reset_with_its_response :
    (after .lineTransmitComplete resettingCold).responder.binding = none ∧
    (after .lineTransmitComplete resettingCold).responder.resetPending = none := by decide +kernel

theorem test_step_identify_from_the_station :
    lastStationReply (after (.identify call) bound) =
      some (0, [0x0A, 0x3C, 0x71, 0xE5, 0x20, 0x00, 2, 8, 1, 32, 4, 16, 5, 8, 1, 0x80, 128, 1, 0x00, 0x20, 0xA4, 0x11,
        0x07, 0x01]) := by decide +kernel

theorem test_step_bind_of_lease_0 : lastReply (after (.bind order 0) State.reset) = some (0, [0, 60]) := by
  decide +kernel

theorem test_step_bind_elsewhere :
    lastReply (after (.bind foreign 30) bound) = some (5, [0, 0, 0xEA, 0x60]) := by decide +kernel

theorem test_step_unbind :
    (after (.unbind order) bound).responder.binding = none ∧ lastReply (after (.unbind order) bound) = some (0, []) := by
  decide +kernel

theorem test_step_status : (lastReply (after (.status order) releasing)).map (fun r => (r.1, r.2.length, r.2.take 3)) =
    some (0, 60, [5, 4, 0]) := by decide +kernel

theorem test_step_repeat_is_replayed :
    (after (.status again) bound).line.control = [{ bindReply with kind := 4 }] := by decide +kernel

theorem test_step_rule_stage :
    lastReply (after (.ruleStage order 31 0 longest.bytes) bound) = some (0, [31, 1]) ∧
    (after (.ruleStage order 31 0 longest.bytes) bound).rules.staged[31]? = some (.stagedRecord longest) := by
  decide +kernel

theorem test_step_rule_discard : lastReply (after (.ruleDiscard order) staged) = some (0, [2]) := by decide +kernel

theorem test_step_rule_commit :
    lastReply (after (.ruleCommit order) staged) = some (0, [2]) ∧
    (after (.ruleCommit order) staged).rules.active[6]? = some { record := some widest, count := 0 } := by decide +kernel

theorem test_step_rule_read :
    lastReply (after (.ruleRead order 0 31) tabled) = some (0, [0, 31, 1, 0, 0, 0, 9] ++ longest.bytes) := by
  decide +kernel

theorem test_step_profile_write :
    (after (.profileWrite order 3 (profileBytes (some (profile0 .discard)))) bound).ctx.profiles[3]? =
      some (some (profile0 .discard)) := by decide +kernel

theorem test_step_profile_write_of_the_active_record :
    lastReply (after (.profileWrite order 3 (List.replicate 12 0)) (profiled .asleep)) = some (9, []) ∧
    (after (.profileWrite order 3 (List.replicate 12 0)) (profiled .awake)).ctx.active = .none := by decide +kernel

theorem test_step_profile_read :
    lastReply (after (.profileRead order 3) tabled) = some (0, 3 :: profileBytes (some (profile0 .discard))) := by
  decide +kernel

theorem test_step_template_write :
    (after (.templateWrite order 15 0 largest.bytes) bound).answers.templates[15]? = some (some largest) := by
  decide +kernel

theorem test_step_template_read :
    lastReply (after (.templateRead order 15) tabled) = some (0, [15, 1] ++ largest.bytes) := by decide +kernel

theorem test_step_class_write :
    (after (.classWrite order 3 384 1 2) bound).hold.configs.c3 =
      { quota := 384, lifetime := 1, policy := .wakeOnFull } ∧
    lastReply (after (.classWrite order 4 384 1 2) bound) = some (7, []) := by decide +kernel

theorem test_step_class_read :
    lastReply (after (.classRead order 4) bound) = some (0, [4, 1, 0x80, 0, 0, 0] ++ List.replicate 27 0) := by
  decide +kernel

theorem test_step_hold_list :
    lastReply (after (.holdList order 1 1) (delivering.setTime 5)) =
      some (0, [1, 0, 0, 0, 1, 1, 0, 32, 0, 0, 64, 0, 0, 0, 5]) := by decide +kernel

theorem test_step_hold_purge_spares_the_delivering_frame :
    lastReply (after (.holdPurge order 0 0 0) delivering) = some (0, [1]) ∧
    (after (.holdPurge order 0 0 0) delivering).hold.list = [held 0 .c0 .delivering] := by decide +kernel

theorem test_step_wake :
    lastReply (after (.wake order) asleep) = some (0, [3]) ∧ (after (.wake order) asleep).wakePin = true ∧
    lastReply (after (.wake order) bound) = some (9, [0]) := by decide +kernel

theorem test_step_notice_ack :
    lastReply (after (.noticeAck order 8) gathering) = some (12, []) ∧
    ((after (.noticeAck order 7) gathering).line.control.map CtlFrame.kind) = [2, 3] := by decide +kernel

theorem test_step_notice_mask :
    (after (.noticeMask order 0xF) bound).notices.mask = 0xF ∧
    lastReply (after (.noticeMask order 0x10) bound) = some (8, []) := by decide +kernel

theorem test_step_counters_read :
    lastReply (after (.countersRead order 3 0) bound) = some (0, [3, 4] ++ List.replicate 16 0) ∧
    lastReply (after (.countersRead order 2 1) bound) = some (8, []) := by decide +kernel

theorem test_step_reset_is_pending :
    (after (.reset order 1) bound).responder.resetPending = some .cold ∧
    (after (.identify order) (after (.reset order 1) bound)).responder.lineOverrun = 1 := by decide +kernel

theorem test_step_doze :
    lastStationReply (after (.doze call 0) (defined0 bound)) = some (0, [2, 0]) ∧
    (after (.doze call 0) (defined0 bound)).ctx.address = some stationAddress ∧
    lastStationReply (after (.doze call 1) (defined0 bound)) = some (11, []) := by decide +kernel

theorem test_step_resume :
    lastStationReply (after (.resume call) asleepDelayed) = some (0, [5, 1]) ∧
    (after (.resume call) asleepDelayed).releaseTimer = .running 40 ∧
    (after (.resume call) asleep).ctx.station = .awake := by decide +kernel

theorem test_step_station_query :
    lastStationReply (after (.stationQuery call) releasing) = some (0, [5, 2, 1, 1, 0, 0, 0]) := by decide +kernel

theorem test_step_lease_expires :
    (after .leaseExpiry leaseOver).responder.binding = none ∧ after .leaseExpiry bound = bound := by decide +kernel

theorem test_step_notice_is_offered :
    (after .noticeOffer (noticing bound [notice 7 0] .stopped)).line.control.map (fun c => (c.kind, c.code, c.seq)) =
      [(3, 0x62, 7)] ∧
    (after .noticeOffer (noticing bound [notice 7 0] .stopped)).notices.timer = .running 2000 := by decide +kernel

theorem test_step_fourth_notice_is_lost :
    (after .retransmitTimerExpiry (noticing bound [notice 7 4, notice 8 0] (.running 0))).notices.lost = 1 ∧
    ((after .retransmitTimerExpiry (noticing bound [notice 7 4, notice 8 0] (.running 0))).notices.queue.map
      Notice.serial) = [8] := by decide +kernel

theorem test_idle_millisecond :
    (State.reset.tick).time = 1 ∧ State.reset.tick.pending.length = 0 ∧ (releasing.elapse).releaseTimer = .running 99 :=
  ⟨rfl, by decide +kernel, rfl⟩

/-- The worked signature of section 11.6, step by step and over its selection. -/
theorem test_worked_signature :
    signatureOf [0x88] = 0xF170#16 ∧ signatureOf [0x88, 0xB7] = 0x5802#16 ∧
    signatureOf [0x88, 0xB7, 0x02, 0x00, 0x10, 0x03] = 0x40E0#16 ∧
    ({ widest with windowOffset := 12, mask := [true, true, true, false, false, true, true, true] } :
      RuleRecord).selected (List.replicate 12 0 ++ [0x88, 0xB7, 0x02, 0x7F, 0x7F, 0x00, 0x10, 0x03] ++
        List.replicate 44 0) = [0x88, 0xB7, 0x02, 0x00, 0x10, 0x03] := by decide +kernel

end Sys2Proof.Tests
end

