-- ==== Sys2Proof/Proofs/RulesAndSignature.lean ====
section
/-! The signature (R30), the tests on the selected bytes (R31, R32) and RULE_DISCARD (R42). -/

namespace Sys2Proof.Machine

/-! ## The signature (R30) -/

/-- Before any byte the register holds FFFF hex. -/
@[simp] theorem signatureOf_nil : signatureOf [] = 0xFFFF#16 := rfl

/-- The signature takes its bytes in order, the last one last. -/
theorem signatureOf_append_singleton (l : List Byte) (b : Byte) :
    signatureOf (l ++ [b]) = signatureShifts 8 (signatureOf l ^^^ (b.setWidth 16 <<< 8)) := by
  rw [signatureOf, List.foldl_append]; rfl

@[simp] theorem signatureShifts_zero (r : Word16) : signatureShifts 0 r = r := rfl

/-- A run of shifts begins with the shift of R30. -/
theorem signatureShifts_succ (n : Nat) (r : Word16) :
    signatureShifts (n + 1) r = signatureShifts n (if r.getLsbD 15 then (r <<< 1) ^^^ 0x1021#16 else r <<< 1) :=
  rfl

/-- The first stage of the worked byte 41 hex. -/
theorem signature_first_stage_41 : 0xFFFF#16 ^^^ ((0x41#8).setWidth 16 <<< 8) = 0xBEFF#16 := by decide

/-- The register after each of the eight shifts of the worked byte 41 hex. -/
theorem signatureShifts_table_41 : (List.range 8).map (fun n => signatureShifts (n + 1) 0xBEFF#16) =
    [0x6DDF#16, 0xDBBE#16, 0xA75D#16, 0x5E9B#16, 0xBD36#16, 0x6A4D#16, 0xD49A#16, 0xB915#16] := by decide

/-- The bit shifted out at each of the eight shifts of the worked byte 41 hex. -/
theorem signatureShifts_bits_41 : (List.range 8).map (fun n => (signatureShifts n 0xBEFF#16).getLsbD 15) =
    [true, false, true, true, false, true, false, true] := by decide

/-- The check value of the nine characters 1 to 9. -/
theorem signatureOf_digits :
    signatureOf [0x31, 0x32, 0x33, 0x34, 0x35, 0x36, 0x37, 0x38, 0x39] = 0x29B1#16 := by decide +kernel

/-- Settles O21: the fold of the definition is read from its last byte, the run of shifts from its first; the
tables are evaluated. -/
theorem signatureIsTheCheckOfR30 : Obligations.SignatureIsTheCheckOfR30 :=
  ⟨signatureOf_nil, signatureOf_append_singleton, signatureShifts_zero, signatureShifts_succ, by decide, by decide,
    signatureOf_digits, signature_first_stage_41, signatureShifts_table_41, signatureShifts_bits_41⟩

/-! ## The tests on the selected bytes (R31, R32) -/

/-- SIGNATURE compares the signature alone (R31). -/
@[simp] theorem RuleTest.succeeds_signature (e : Word16) (l : List Byte) :
    (RuleTest.signature e).succeeds l = true ↔ signatureOf l = e := beq_iff_eq

/-- EXACT compares the bytes themselves (R32). -/
@[simp] theorem RuleTest.succeeds_exactly (l bytes : List Byte) :
    (RuleTest.exactly l).succeeds bytes = true ↔ bytes = l := beq_iff_eq

/-- A list is the image of another of its length when it is so place by place. -/
theorem map_eq_iff_forall_places {α β : Type} {f : α → β} {xs : List α} {l : List β} (hl : l.length = xs.length) :
    xs.map f = l ↔ ∀ (k : Nat) (x : α) (b : β), xs[k]? = some x → l[k]? = some b → f x = b := by
  constructor
  · rintro rfl k x b hx hb
    simpa [hx] using hb
  · intro h
    refine List.ext_getElem (by simp [hl]) fun k hx hb => ?_
    rw [List.getElem_map]
    exact h k _ _ (List.getElem?_eq_getElem _) (List.getElem?_eq_getElem hb)

/-- Frames that agree at the selected offsets have the same selected bytes. -/
theorem RuleRecord.selected_congr {r : RuleRecord} {f g : Frame} (hf : r.windowOffset + r.mask.length ≤ f.length)
    (hg : r.windowOffset + r.mask.length ≤ g.length) (h : ∀ offset ∈ r.offsets, byteAt f offset = byteAt g offset) :
    r.selected f = r.selected g := by
  rw [r.selected_eq f hf, r.selected_eq g hg, List.map_congr_left h]

/-- Settles O22: the selected bytes are the frame's bytes at the rule's offsets (`RuleRecord.selected_eq`), and a test
sees nothing else of the frame. -/
theorem testsJudgeTheSelectedBytes : Obligations.TestsJudgeTheSelectedBytes := by
  refine ⟨?signature, ?exactly, ?nothingElse, ?worked⟩
  case signature =>
    intro r f e hw ht
    rw [ht, RuleTest.succeeds_signature, r.selected_eq f hw]
  case exactly =>
    intro r f l hw ht hl
    rw [ht, RuleTest.succeeds_exactly, r.selected_eq f hw, map_eq_iff_forall_places hl]
  case nothingElse =>
    intro r f g hf hg h
    rw [RuleRecord.selected_congr hf hg h]
  case worked =>
    intro r ho hm
    rw [RuleRecord.offsets, ho, hm]
    decide

/-! ## RULE_DISCARD (R42) -/

/-- The staged entries are those other than NO_CHANGE. -/
theorem StagedEntry.isStaged_eq (e : StagedEntry) : e.isStaged = decide (e ≠ .noChange) := by
  cases e <;> simp [StagedEntry.isStaged]

/-- The count of R42 and R43 is the number of entries other than NO_CHANGE. -/
theorem stagedCount_eq_countP (l : List StagedEntry) : stagedCount l = l.countP fun e => decide (e ≠ .noChange) := by
  rw [stagedCount, funext StagedEntry.isStaged_eq, List.countP_eq_length_filter]

/-- The count of a table of 32 entries is at most 32. -/
theorem State.Capacities.stagedCount_le {s : State} (hc : s.Capacities) : stagedCount s.rules.staged ≤ 32 :=
  (List.length_filter_le ..).trans hc.staged.le

/-- RULE_DISCARD asks nothing of the station: its response is placed and the staged table alone is replaced. -/
theorem exec_ruleDiscard {s : State} {h : CmdHeader} {b : Binding} (hs : s.Settled) (hx : s.Executes h b) :
    exec (.ruleDiscard h) s = .next
      ((s.executed h .ruleDiscard b .ok [byteOf (stagedCount s.rules.staged)]).setRules
        { s.rules with staged := unstaged s.rules.staged }) := by
  have row : (Instr.ruleDiscard h).asCommand = some (h, .ruleDiscard, []) := rfl
  have own : Cmd.ruleDiscard.own (Ctl.ofCommand h .ruleDiscard []) (s.heard .line) =
      { state := (s.heard .line).setRules { s.rules with staged := unstaged s.rules.staged }
        status := .ok
        body := [byteOf (stagedCount s.rules.staged)] } := rfl
  rw [exec_owned_quiet row hs hx rfl (by decide) rfl own rfl rfl rfl rfl rfl rfl rfl rfl, State.executed_setRules]

/-- Settles O32: the run of RULE_DISCARD, with the count read as that of the entries other than NO_CHANGE; 32 fits a
byte. -/
theorem ruleDiscardWithdrawsEveryEntry : Obligations.RuleDiscardWithdrawsEveryEntry := by
  constructor
  · intro s h b hs hx
    rw [exec_ruleDiscard hs hx, stagedCount_eq_countP]
    rfl
  · intro s hc
    have most := hc.stagedCount_le
    rw [stagedCount_eq_countP] at most
    exact ⟨most, byteOf_toNat (by omega)⟩

end Sys2Proof.Machine
end

section
/-! The end of a binding by UNBIND (R135). -/

namespace Sys2Proof.Machine

/-! ## Without a binding -/

/-- Without a binding no notice is offered (R170). -/
theorem State.offerDue_of_unbound {s : State} (h : s.responder.binding = none) : s.offerDue = false := by
  simp [State.offerDue, h]

/-- The end of a binding leaves none (R132). -/
@[simp] theorem State.endBinding_binding (s : State) : s.endBinding.responder.binding = none := rfl

/-- The end of a binding, after a response was placed on the line port of a settled state: the transmitter begins with
the response if it was idle, and nothing is offered. -/
theorem State.settle_placed_endBinding {s : State} (r : CtlFrame) (hs : s.nothingDue = true)
    (hu : s.linkUp .line = true) (hp : s.responder.resetPending = none)
    (hr : (s.controlQueue .line).length < controlCap .line) :
    ((s.heard .line).place .line r).endBinding.settle = (s.withReply .line r).endBinding := by
  have unoffered : ((s.heard .line).place .line r).endBinding.offerDue = false :=
    State.offerDue_of_unbound (State.endBinding_binding _)
  rw [State.settle_lineSession (u := ((s.heard .line).place .line r).endBinding) r hs hu hr rfl hp rfl rfl rfl rfl rfl
    (.inl unoffered)]
  rfl

/-! ## The session checks of a bound-only command, refused (R129, check 5) -/

section
variable {i : Instr} {s : State} {h : CmdHeader} {k : Cmd} {ps : List Byte}

/-- A bound-only command that finds no binding is refused with NOT_BOUND. -/
theorem exec_notBound (hi : i.asCommand = some (h, k, ps)) (hs : s.Settled) (hj : s.Judges h)
    (hk : k.boundOnly = true) (hl : k.lengthOk ps.length = true) (hp : h.port = .line)
    (unbound : s.responder.binding = none) :
    exec i s = .next (s.withReply .line (s.reply h k .notBound [])) := by
  rw [← hp]
  refine exec_refusal hi hs hj ((Cmd.lengthOk_le hl).trans (by decide)) ?_
  rw [judge_bound _ hk hl hp]
  simp [State.judgeBound, unbound]

/-- A bound-only command that finds the binding of another manager is refused with BOUND_ELSEWHERE and the lease
remaining. -/
theorem exec_boundElsewhere {b : Binding} (hi : i.asCommand = some (h, k, ps)) (hs : s.Settled) (hj : s.Judges h)
    (hk : k.boundOnly = true) (hl : k.lengthOk ps.length = true) (hp : h.port = .line)
    (bound : s.responder.binding = some b) (other : b.manager ≠ h.source) :
    exec i s = .next (s.withReply .line (s.reply h k .boundElsewhere (be32 (BitVec.ofNat 32 b.remaining)))) := by
  have source : (Ctl.ofCommand h k ps).source = h.source := rfl
  rw [← hp]
  refine exec_refusal hi hs hj ((Cmd.lengthOk_le hl).trans (by decide)) ?_
  rw [judge_bound _ hk hl hp]
  simp [State.judgeBound, bound, source, other]

end

/-! ## UNBIND (R135) -/

/-- The execution of UNBIND: its OK response without a body is placed, and the binding ends; nothing is cached. -/
theorem State.execute_unbind (s : State) (h : CmdHeader) (b : Binding) :
    s.execute .unbind (Ctl.ofCommand h .unbind []) b = (s.place h.port (s.reply h .unbind .ok [])).endBinding := rfl

/-- An UNBIND that passes every check. -/
theorem exec_unbind {s : State} {h : CmdHeader} {b : Binding} (hs : s.Settled) (hx : s.Executes h b) :
    exec (.unbind h) s = .next (s.withReply .line (s.reply h .unbind .ok [])).endBinding := by
  have row : (Instr.unbind h).asCommand = some (h, .unbind, []) := rfl
  have up : s.linkUp .line = true := hx.port ▸ hx.up
  have room : (s.controlQueue .line).length < controlCap .line := hx.port ▸ hx.room
  rw [exec_executes row hx rfl rfl, State.execute_unbind, hx.port, State.heard_reply,
    State.settle_placed_endBinding _ (hs hx.high) up hx.noReset room]

/-- Settles O9: the execution ends the binding, so nothing is offered after the response; a retransmission meets the
refusals of check 5. -/
theorem unbindEndsTheBinding : Obligations.UnbindEndsTheBinding := by
  refine ⟨?executed, ?notBound, ?boundElsewhere⟩
  case executed =>
    intro s h b hs hx
    exact exec_unbind hs hx
  case notBound =>
    intro s h hs hj hp unbound
    exact exec_notBound rfl hs hj rfl rfl hp unbound
  case boundElsewhere =>
    intro s h b hs hj hp bound other
    exact exec_boundElsewhere rfl hs hj rfl rfl hp bound other

end Sys2Proof.Machine
end

section
/-! What a command can do at all, and that every step leaves none of the part's own steps outstanding. -/

namespace Sys2Proof.Machine

/-! ## The ways in which an event ends -/

/-- An event ends in the state it found or in a settled one. -/
def State.EndsSettled (s t : State) : Prop := t = s ∨ ∃ u : State, t = u.settle

theorem State.EndsSettled.unchanged (s : State) : s.EndsSettled s := .inl rfl

theorem State.EndsSettled.of_settle (s u : State) : s.EndsSettled u.settle := .inr ⟨u, rfl⟩

theorem State.EndsSettled.when {s : State} {due : Bool} {f : State → State} (h : s.EndsSettled (f s)) :
    s.EndsSettled (s.when due f) := by
  unfold State.when
  split
  · exact h
  · exact .unchanged s

theorem State.EndsSettled.event {s t : State} {f : State → State} (h : s.EndsSettled (f s))
    (he : s.event f = .next t) : s.EndsSettled t := by
  simp only [State.event, Host.Outcome.next.injEq] at he
  split at he
  · exact he ▸ h
  · exact he ▸ .unchanged s

/-- A step that is taken only where it is due, and settles. -/
theorem State.EndsSettled.due {s t : State} {due : Bool} {f : State → State}
    (he : (s.event fun s => s.when due fun s => (f s).settle) = .next t) : s.EndsSettled t :=
  .event (f := fun s => s.when due fun s => (f s).settle) (.when (.of_settle s (f s))) he

theorem State.EndsSettled.command (s : State) (h : CmdHeader) (k : Cmd) (ps : List Byte) :
    s.EndsSettled (s.command h k ps) := by
  unfold State.command
  split
  · exact .of_settle s _
  · exact .unchanged s

theorem State.EndsSettled.receive (s : State) (p : Port) (f : Frame) : s.EndsSettled (s.receive p f) := by
  unfold State.receive
  split
  · exact .of_settle s _
  · exact .unchanged s

theorem execLineTransmitComplete_endsSettled {s t : State} (he : execLineTransmitComplete s = .next t) :
    s.EndsSettled t := by
  refine .event ?_ he
  split
  · exact .unchanged s
  · exact .of_settle s _

theorem execStationTransmitComplete_endsSettled {s t : State} (he : execStationTransmitComplete s = .next t) :
    s.EndsSettled t := by
  refine .event ?_ he
  split
  · exact .unchanged s
  · exact .of_settle s _

/-- Every command but the two of the RESETN pin ends in the state it found or in a settled one. -/
theorem exec_endsSettled {i : Instr} {s t : State} (hi : i ≠ .resetnAsserted)
    (hr : ∀ straps l r, i ≠ .hardwareReset straps l r) (he : exec i s = .next t) : s.EndsSettled t := by
  cases row : i.asCommand with
  | some c =>
    obtain ⟨h, k, ps⟩ := c
    rw [exec_asCommand s row] at he
    exact .event (State.EndsSettled.command s h k ps) he
  | none =>
    cases i
    case hardwareReset straps l r => exact absurd rfl (hr straps l r)
    case resetnAsserted => exact absurd rfl hi
    case lineFrameReceived f => exact .event (State.EndsSettled.receive s .line f) he
    case stationFrameReceived f => exact .event (State.EndsSettled.receive s .station f) he
    case lineTransmitComplete => exact execLineTransmitComplete_endsSettled he
    case stationTransmitComplete => exact execStationTransmitComplete_endsSettled he
    case lineLinkLoss arriving => exact .due he
    case lineLinkRegain => exact .due he
    case stationLinkLoss arriving => exact .due he
    case stationLinkRegain => exact .due he
    case pulseTimerExpiry => exact .due he
    case attemptTimerExpiry => exact .due he
    case restExpiry => exact .due he
    case drainEnd => exact .due he
    case releaseDelayExpiry => exact .due he
    case beginDelivery => exact .due he
    case releaseEnd => exact .due he
    case expiry serial => exact .due he
    case lineTransmitStart => exact .due he
    case stationTransmitStart => exact .due he
    case resetTakesEffect => exact .due he
    case leaseExpiry => exact .due he
    case noticeOffer => exact .due he
    case retransmitTimerExpiry => exact .due he
    all_goals cases row

/-! ## Settled after every step -/

theorem State.settled_settle (s : State) : s.settle.Settled := fun _ => s.settle_nothingDue

/-- An event that ends in a settled state, or in the settled one it found, leaves the part settled. -/
theorem State.EndsSettled.settled {s t : State} (h : s.EndsSettled t) (hs : s.Settled) : t.Settled := by
  obtain rfl | ⟨u, rfl⟩ := h
  · exact hs
  · exact u.settled_settle

/-- The blocks at their hardware reset values leave nothing to do, whatever the links, the straps and part time. -/
theorem State.nothingDue_hardwareReset (s : State) (pins : Pins) (straps : BitVec 6) (l r : Bool) :
    ({ s.blocksReset l r with pins := pins, unitStraps := straps, time := 0 } : State).nothingDue = true := by
  simp [State.nothingDue, State.blocksReset, State.resetDue, State.releaseEndDue, State.drainEndDue,
    State.deliveryDue, State.lineChoiceDue, State.stationChoiceDue, State.offerDue, State.delivering,
    Responder.initial, Context.initial, HoldStore.initial, LinePort.initial, StationPort.initial, AnswerGen.initial,
    Transit.empty, NoticeUnit.initial]

/-- The fall of RESETN leaves it low. -/
theorem execResetnAsserted_low {s t : State} (he : execResetnAsserted s = .next t) : t.pins.resetn = false := by
  simp only [execResetnAsserted, State.event, Host.Outcome.next.injEq] at he
  split at he
  · exact he ▸ rfl
  · next low => exact he ▸ by simpa using low

theorem exec_settled {i : Instr} {s t : State} (hs : s.Settled) (he : exec i s = .next t) : t.Settled := by
  by_cases hardware : ∃ straps l r, i = .hardwareReset straps l r
  · obtain ⟨straps, l, r, rfl⟩ := hardware
    simp only [exec, execHardwareReset, Host.Outcome.next.injEq] at he
    exact fun _ => he ▸ State.nothingDue_hardwareReset s _ straps l r
  · by_cases low : i = .resetnAsserted
    · subst low
      intro high
      rw [execResetnAsserted_low he] at high
      cases high
    · exact (exec_endsSettled low (fun straps l r h => hardware ⟨straps, l, r, h⟩) he).settled hs

/-- One millisecond makes none of the part's own steps due: it moves timers alone, and stops or starts none. -/
theorem State.nothingDue_elapse (s : State) : s.elapse.nothingDue = s.nothingDue := by
  refine State.nothingDue_congr rfl rfl rfl ?_ rfl ?_ rfl rfl rfl rfl rfl rfl rfl rfl ?_
  · simp only [State.elapse, Bool.beq_eq_decide_eq, ReleaseTimer.tick_expired]
  · simp [State.elapse]
  · simp only [State.elapse, Bool.beq_eq_decide_eq, Timer.tick_stopped]

theorem State.settled_tick {s : State} (hs : s.Settled) : s.tick.Settled := by
  unfold State.tick
  split
  · next high => exact fun _ => (State.nothingDue_elapse s).trans (hs high)
  · exact hs

/-- Settles O56: a tick moves timers alone, the two commands of the RESETN pin leave the reset values or RESETN low,
and every other command ends in the state it found or in a settled one (`exec_endsSettled`). -/
theorem stepsLeaveThePartSettled : Obligations.StepsLeaveThePartSettled := by
  intro s t hs he
  unfold step at he
  split at he
  · injection he with he
    exact he ▸ State.settled_tick hs
  · next c rest _ => exact exec_settled (s := s.setPending rest) hs he

/-- Settles O1: the step's own equation. -/
theorem stepTakesTheFrontCommand : Obligations.StepTakesTheFrontCommand := by
  intro s c rest hq
  rw [step, hq]
  rfl

end Sys2Proof.Machine
end

section
/-! What the owning blocks and the path of traffic can do to the state: one inversion lemma for each, from which every
invariant is read. -/

namespace Sys2Proof.Machine

/-! ## The owning blocks -/

/-- The changes of the state that an owning block makes for a command of this source (R148 to R166). -/
inductive OwnerChange (s : State) (source : Mac) : State → Prop
  | nothing : OwnerChange s source s
  | stage (i : Nat) (e : StagedEntry) :
    OwnerChange s source (s.setRules { s.rules with staged := s.rules.staged.set i e })
  | unstage : OwnerChange s source (s.setRules { s.rules with staged := unstaged s.rules.staged })
  | commit : OwnerChange s source (s.setRules s.rules.commit)
  | defineProfile (i : Nat) (p : Profile) (record : List Byte) (read : Profile.read record = some p) :
    OwnerChange s source (s.setProfile i (some p))
  | undefineProfile (i : Nat) (inactive : s.ctx.active.isRecord i = false) : OwnerChange s source (s.setProfile i none)
  | undefineActive (i : Nat) (awake : s.ctx.station = .awake) :
    OwnerChange s source (s.setCtx { s.ctx with profiles := s.ctx.profiles.set i none, active := .none })
  | template (i : Nat) (t : Option Template) : OwnerChange s source (s.setTemplate i t)
  | writeClass (c : HoldClass) (k : ClassConfig) : OwnerChange s source (s.setHold (s.hold.writeClass c k s.time))
  | purge (sel : Descriptor → Bool) : OwnerChange s source (s.setHold (s.hold.remove sel .purged))
  | wake : OwnerChange s source (s.wakeDecision .managerWake)
  | acknowledge (n : Notice) (rest : List Notice) (queue : s.notices.queue = n :: rest) :
    OwnerChange s source (s.setNotices { s.notices with queue := rest, timer := .stopped })
  | mask (m : BitVec 4) : OwnerChange s source (s.setNotices { s.notices with mask := m })
  | clearPorts : OwnerChange s source s.clearPorts
  | clearRules : OwnerChange s source s.clearRules
  | clearAnswers : OwnerChange s source s.clearAnswers
  | orderReset (x : Strength) : OwnerChange s source (s.setResponder { s.responder with resetPending := some x })
  | doze (i : Fin 4) (defined : (s.ctx.profiles.getD i.val none).isSome = true) :
    OwnerChange s source (s.setCtx { s.ctx with address := some source, active := .record i }).dozeMove
  | resume (away : s.ctx.station.away = true) : OwnerChange s source s.endSleep

section
variable (s : State) (source : Mac) (ps : List Byte)

theorem ownRuleStage_change : OwnerChange s source (ownRuleStage ps s).state := by
  unfold ownRuleStage
  dsimp only
  repeat' split
  all_goals first | exact .nothing | exact .stage ..

theorem undefineProfile_change (i : Nat) : OwnerChange s source (s.undefineProfile i).state := by
  unfold State.undefineProfile
  split
  · split
    · next awake => exact .undefineActive i awake
    · exact .nothing
  · next inactive => exact .undefineProfile i (by simpa using inactive)

theorem ownProfileWrite_change : OwnerChange s source (ownProfileWrite ps s).state := by
  unfold ownProfileWrite
  dsimp only
  split
  · exact .nothing
  · split
    · exact .nothing
    · split
      · exact undefineProfile_change s source _
      · split
        · exact .nothing
        · next p read => exact .defineProfile _ p _ read

theorem ownTemplateWrite_change : OwnerChange s source (ownTemplateWrite ps s).state := by
  unfold ownTemplateWrite
  dsimp only
  repeat' split
  all_goals first | exact .nothing | exact .template ..

theorem ownClassWrite_change : OwnerChange s source (ownClassWrite ps s).state := by
  unfold ownClassWrite
  dsimp only
  repeat' split
  all_goals first | exact .nothing | exact .writeClass ..

theorem ownHoldPurge_change : OwnerChange s source (ownHoldPurge ps s).state := by
  unfold ownHoldPurge
  dsimp only
  repeat' split
  all_goals first | exact .nothing | exact .purge _

theorem ownWake_change : OwnerChange s source (ownWake s).state := by
  unfold ownWake
  split
  all_goals first | exact .nothing | exact .wake

theorem ownNoticeAck_change : OwnerChange s source (ownNoticeAck ps s).state := by
  unfold ownNoticeAck
  dsimp only
  split
  · exact .nothing
  · next n rest queue =>
    split
    · exact .acknowledge n rest queue
    · exact .nothing

theorem ownNoticeMask_change : OwnerChange s source (ownNoticeMask ps s).state := by
  unfold ownNoticeMask
  dsimp only
  split
  · exact .nothing
  · exact .mask _

theorem ownCountersRead_change : OwnerChange s source (ownCountersRead ps s).state := by
  unfold ownCountersRead
  dsimp only [Own.ok]
  repeat' split
  all_goals first | exact .nothing | exact .clearPorts | exact .clearRules | exact .clearAnswers

theorem ownReset_change : OwnerChange s source (ownReset ps s).state := by
  unfold ownReset
  dsimp only
  repeat' split
  all_goals first | exact .nothing | exact .orderReset _

theorem ownDoze_change : OwnerChange s source (ownDoze source ps s).state := by
  unfold ownDoze
  split
  · exact .nothing
  · next i _ =>
    split
    · exact .nothing
    · next defined => exact .doze i (by simpa [Option.isSome_iff_ne_none] using defined)

theorem ownResume_change : OwnerChange s source (ownResume s).state := by
  unfold ownResume
  dsimp only [Own.ok]
  split
  · next away => exact .resume away
  · exact .nothing

end

/-- What an owning block leaves, whatever the command. -/
theorem Cmd.own_change (k : Cmd) (c : Ctl) (s : State) : OwnerChange s c.source (k.own c s).state := by
  cases k
  case ruleStage => exact ownRuleStage_change ..
  case ruleDiscard => exact .unstage
  case ruleCommit => exact .commit
  case ruleRead => rw [Cmd.own, ownRuleRead_state]; exact .nothing
  case profileWrite => exact ownProfileWrite_change ..
  case profileRead => rw [Cmd.own, ownProfileRead_state]; exact .nothing
  case templateWrite => exact ownTemplateWrite_change ..
  case templateRead => rw [Cmd.own, ownTemplateRead_state]; exact .nothing
  case classWrite => exact ownClassWrite_change ..
  case classRead => rw [Cmd.own, ownClassRead_state]; exact .nothing
  case holdList => rw [Cmd.own, ownHoldList_state]; exact .nothing
  case holdPurge => exact ownHoldPurge_change ..
  case wake => exact ownWake_change ..
  case noticeAck => exact ownNoticeAck_change ..
  case noticeMask => exact ownNoticeMask_change ..
  case countersRead => exact ownCountersRead_change ..
  case reset => exact ownReset_change ..
  case doze => exact ownDoze_change ..
  case resume => exact ownResume_change ..
  all_goals exact .nothing

/-! ## The control responder -/

/-- What the counts of the tests of R127 keep, and the judging of a frame that passes them, the responder keeps. -/
theorem State.respond_kept {P : State → Prop} (s : State) (c : Ctl) (overrun : P (s.countOverrun c.port))
    (malformed : P (s.countMalformed c.port))
    (judged : groupBit c.source = false → (s.controlQueue c.port).length < controlCap c.port → P (s.judge c)) :
    P (s.respond c) := by
  unfold State.respond
  split
  · exact overrun
  · split
    · exact malformed
    · next individual =>
      split
      · exact overrun
      · next room => exact judged (by simpa using individual) (by omega)

/-- The counts of the tests of R127 are the responder's. -/
theorem State.countOverrun_eq (s : State) (p : Port) : ∃ r, s.countOverrun p = s.setResponder r := by
  cases p <;> exact ⟨_, rfl⟩

theorem State.countMalformed_eq (s : State) (p : Port) : ∃ r, s.countMalformed p = s.setResponder r := by
  cases p <;> exact ⟨_, rfl⟩

/-- A predicate on which neither the counters nor the control queues nor the responder nor the notice unit bear is kept
by the control responder where the owning blocks keep it. -/
theorem State.consume_kept {P : State → Prop} {s : State} (c : Ctl) (h : P s)
    (owned : ∀ u t : State, P u → OwnerChange u c.source t → P t)
    (count : ∀ (u : State) (p : Port) (f : PortCounters → PortCounters), P u → P (u.mapCounters p f))
    (respond : ∀ (u : State) (r : Responder), P u → P (u.setResponder r))
    (place : ∀ (u : State) (p : Port) (f : CtlFrame), P u → P (u.place p f))
    (notices : ∀ (u : State) (n : NoticeUnit), P u → P (u.setNotices n)) : P (s.consume c) := by
  have counted : P ((s.countReceived c.port).countConsumed c.port) := count _ _ _ (count _ _ _ h)
  refine State.respond_kept _ _ ?_ ?_ fun _ _ => ?_
  · obtain ⟨r, e⟩ := State.countOverrun_eq ((s.countReceived c.port).countConsumed c.port) c.port
    exact e ▸ respond _ _ counted
  · obtain ⟨r, e⟩ := State.countMalformed_eq ((s.countReceived c.port).countConsumed c.port) c.port
    exact e ▸ respond _ _ counted
  · exact State.judge_kept _ _ counted (fun k => owned _ _ counted (k.own_change c _)) place
      (fun u b => respond u _) (fun u hu => notices _ _ (respond _ _ hu))

/-- What the judging of a control frame comes to (R129): an answer alone, the answer of a station command's owner, a
binding formed, an execution, an UNBIND, a replay. -/
inductive Judgement (s : State) (c : Ctl) : State → Prop
  | answered (x : Status) (body : List Byte) : Judgement s c (s.answer c x body)
  | served (k : Cmd) (x : Status) (body : List Byte) : Judgement s c ((k.own c s).state.answer c x body)
  | bound (lease : Nat) (range : 5 ≤ lease ∧ lease ≤ 600) (x : Status) (body : List Byte) :
    Judgement s c ((s.place c.port (c.response s.unitAddress x body)).setBinding
      (some { manager := c.source, lease := lease, remaining := lease * 1000, lastSeq := c.seq,
              cached := c.response s.unitAddress x body }))
  | executed (k : Cmd) (b : Binding) (present : s.responder.binding = some b) (x : Status) (body : List Byte) :
    Judgement s c (((k.own c s).state.place c.port (c.response s.unitAddress x body)).setBinding
      (some { b with lastSeq := c.seq, cached := c.response s.unitAddress x body, remaining := b.lease * 1000 }))
  | unbound (f : CtlFrame) : Judgement s c (s.place c.port f).endBinding
  | replayed (b : Binding) (present : s.responder.binding = some b) (f : CtlFrame) :
    Judgement s c ((s.place c.port f).setBinding (some { b with remaining := b.lease * 1000 }))

/-- A granted lease is in range (R133). -/
theorem leaseGranted_range {n lease : Nat} (h : leaseGranted n = some lease) : 5 ≤ lease ∧ lease ≤ 600 := by
  unfold leaseGranted at h
  split at h
  · injection h with h
    omega
  · split at h
    · injection h with h
      omega
    · cases h

section
variable (s : State) (c : Ctl)

theorem State.judgeBind_judgement : Judgement s c (s.judgeBind c) := by
  unfold State.judgeBind
  dsimp only
  repeat' split
  all_goals first | exact .answered .. | exact .bound _ (leaseGranted_range ‹_›) ..

theorem State.judgeBound_judgement (k : Cmd) : Judgement s c (s.judgeBound k c) := by
  unfold State.judgeBound
  split
  · exact .answered ..
  · next b present =>
    split
    · exact .answered ..
    · split
      · unfold State.execute
        dsimp only
        split
        · next unbind => exact unbind ▸ .unbound _
        · exact .executed k b present ..
      · split
        · exact .replayed b present _
        · exact .answered ..

theorem State.judgeCommand_judgement (k : Cmd) : Judgement s c (s.judgeCommand k c) := by
  unfold State.judgeCommand
  repeat' split
  · exact .answered ..
  · exact .answered ..
  · exact State.judgeBound_judgement s c k
  · exact State.judgeBind_judgement s c
  · exact .served ..

theorem State.judge_judgement : Judgement s c (s.judge c) := by
  unfold State.judge
  repeat' split
  · exact .answered ..
  · exact .answered ..
  · exact .answered ..
  · exact State.judgeCommand_judgement s c _
  · exact .answered ..

end

/-! ## Traffic -/

/-- What the store's work, the report and the wake decision keep, an offer to the hold store keeps. -/
theorem State.offerFrame_kept {P : State → Prop} {s : State} (c : HoldClass) (o : Origin) (f : Frame)
    (offered : P (s.setHold (s.hold.offer c o f s.time).1))
    (raise : ∀ (u : State) (b : NoticeBody), P u → P (u.raise b))
    (wake : ∀ (u : State) (x : Cause), P u → P (u.wakeDecision x)) : P (s.offerFrame c o f) := by
  unfold State.offerFrame
  dsimp only
  split
  · exact offered
  · exact raise _ _ offered
  · split
    · exact wake _ _ (raise _ _ offered)
    · exact raise _ _ offered

/-- What each stage of the path of traffic keeps, the path keeps. Nothing is offered to the hold store in AWAKE. -/
theorem State.traffic_kept {P : State → Prop} {s : State} (p : Port) (f : Frame) (h : P s)
    (toStation : s.ctx.station = .awake → P (s.joinToStation f)) (toLine : P (s.joinToLine f))
    (counted : ∀ i, P (s.setRules (s.rules.countMatch i)))
    (unmatched : ∀ x y, P (s.setRules { s.rules with unmatchedHeld := x, unmatchedDiscarded := y }))
    (compose : ∀ (u : State) (t : Fin 16), P u → P (u.compose f t))
    (offer : ∀ (u : State) (c : HoldClass) (o : Origin), P u → u.ctx.station ≠ .awake →
      P (u.setHold (u.hold.offer c o f u.time).1))
    (raise : ∀ (u : State) (b : NoticeBody), P u → P (u.raise b))
    (wake : ∀ (u : State) (x : Cause), P u → P (u.wakeDecision x)) : P (s.traffic p f) := by
  have offerFrame (u : State) (c : HoldClass) (o : Origin) (hu : P u) (held : u.ctx.station ≠ .awake) :
      P (u.offerFrame c o f) := State.offerFrame_kept c o f (offer u c o hu held) raise wake
  have classify (away : s.ctx.station ≠ .awake) : P (s.classify f) := by
    unfold State.classify
    split
    · unfold State.disposeByDefault
      dsimp only
      split
      · exact unmatched _ _
      · exact offerFrame _ _ _ (unmatched _ _) away
    · next i r _ =>
      have disposed : P ((s.setRules (s.rules.countMatch i)).dispose i r.disposition f) := by
        cases r.disposition with
        | discard => exact counted i
        | hold c => exact offerFrame _ _ _ (counted i) away
        | answer t => exact compose _ _ (counted i)
        | answerHold t c => exact offerFrame _ _ _ (compose _ _ (counted i)) (by simpa using away)
      dsimp only
      split
      · exact wake _ _ disposed
      · exact disposed
  cases p with
  | station => exact toLine
  | line =>
    unfold State.traffic State.lineTraffic
    dsimp only
    split
    · exact toStation ‹_›
    · next releasing => exact offerFrame _ _ _ h (by simp [releasing])
    all_goals exact classify (by simp [*])

end Sys2Proof.Machine
end

section
/-! The accounting of the hold store and the order of its list are kept by every step. -/

namespace Sys2Proof.Machine

/-! ## Each operation and the hold store -/

section
variable {s t : State}

theorem OwnerChange.sound {source : Mac} (change : OwnerChange s source t) (h : s.hold.Sound) : t.hold.Sound := by
  cases change
  case writeClass c k => exact h.writeClass ..
  case purge sel => exact h.remove ..
  all_goals
    simpa [State.setProfile, State.setTemplate, State.clearPorts, State.clearRules, State.clearAnswers] using h

theorem State.mapCounters_sound (h : s.hold.Sound) (p : Port) (f : PortCounters → PortCounters) :
    (s.mapCounters p f).hold.Sound := by
  rw [(s.mapCounters_fields p f).2.2.2.2.2.2.1]
  exact h

theorem State.consume_sound (h : s.hold.Sound) (c : Ctl) : (s.consume c).hold.Sound :=
  State.consume_kept (P := fun s => s.hold.Sound) c h (fun _ _ hu change => change.sound hu)
    (fun _ p f hu => State.mapCounters_sound hu p f) (fun _ _ hu => hu) (fun u p f hu => by simpa using hu)
    (fun _ _ hu => hu)

theorem State.traffic_sound (h : s.hold.Sound) (p : Port) (f : Frame) : (s.traffic p f).hold.Sound :=
  State.traffic_kept (P := fun s => s.hold.Sound) p f h (fun _ => by simpa using h) (by simpa using h) (fun _ => h)
    (fun _ _ => h) (fun u t hu => by simpa using hu) (fun u c o hu _ => hu.offer c o f u.time) (fun _ _ hu => hu)
    (fun u x hu => by simpa using hu)

theorem State.loseStation_hold (s : State) : s.loseStation.hold = s.hold.cutWithReturn s.time := by
  simp [State.loseStation]

theorem State.warmReset_hold (s : State) : s.warmReset.hold = s.hold.remove (fun _ => true) .purged := by
  unfold State.warmReset
  split <;> simp [State.warmClear]

theorem State.takeReset_sound (h : s.hold.Sound) : s.takeReset.hold.Sound := by
  unfold State.takeReset
  split
  · exact h
  · rw [State.warmReset_hold]
    exact h.remove ..
  · exact HoldStore.Sound.initial

theorem State.leaveStation_sound (h : s.hold.Sound) (x : StationSource) : (s.leaveStation x).hold.Sound := by
  cases x with
  | control => exact h
  | release => exact h.removeFirst ..
  | transit => exact h

end

/-! ## Every step -/

/-- Every change of the state that a step is made of keeps the hold store sound. -/
theorem keepsSound : State.Kept (fun s => s.hold.Sound) (fun _ => True) where
  pend _ _ _ h := h
  elapse _ h := h
  hard _ _ _ _ _ := HoldStore.Sound.initial
  low _ h := by simpa using h
  lineLoss _ _ h := by simpa using h
  lineEvent _ _ h := by simpa using h
  lineRegain _ h := h
  stationLoss s a h := by simpa [State.loseStation_hold] using h.cut s.time
  stationRegain _ h := h
  consume _ _ c h := State.consume_sound (by simpa using h) c
  intakeError _ _ h := by simpa using h
  traffic _ p f h := State.traffic_sound (by simpa using h) p f
  pulse _ h := h
  attempt _ h _ _ _ := by simpa using h
  rest _ h _ _ := h
  delay _ h _ := h
  expiry _ _ h _ := h.removeFirst ..
  lineDone _ _ h _ := by simpa using h
  stationDone _ x h _ := State.leaveStation_sound (by simpa using h) x
  endBinding _ h := h
  retransmit _ h := h
  reset _ h _ := State.takeReset_sound h
  releaseEnd _ h _ := h
  drainEnd _ h _ := by simpa using h
  delivery _ h _ := h.begin
  line _ h _ := h
  station _ h _ := h
  offer _ h _ := by simpa using h

/-- Settles O58: every change of the state that a step is made of keeps the store sound (`keepsSound`). -/
theorem stepsKeepTheHoldStore : Obligations.StepsKeepTheHoldStore := by
  intro s t accounted ordered he
  exact keepsSound.step (s := s) ⟨accounted, ordered⟩ (fun _ _ => trivial) he

end Sys2Proof.Machine
end

section
/-! The capacities of the queues and tables, the laws of the notice queue and those of the binding record are kept by
every step. -/

namespace Sys2Proof.Machine

/-! ## The capacities of the control queues -/

/-- No control queue exceeds its capacity (R118, R120). -/
def State.ControlFits (s : State) : Prop := ∀ p, (s.controlQueue p).length ≤ controlCap p

/-- The capacities of the queues of traffic and of the tables (R25, R40, R100, R106, R115, R116). -/
def State.TablesFit (s : State) : Prop :=
  s.answers.queue.length ≤ 4 ∧ s.transit.toStation.length ≤ 4 ∧ s.transit.toLine.length ≤ 4 ∧
    s.rules.active.length = 32 ∧ s.rules.staged.length = 32 ∧ s.ctx.profiles.length = 4 ∧
    s.answers.templates.length = 16

theorem State.capacities_iff (s : State) : s.Capacities ↔ s.ControlFits ∧ s.TablesFit := by
  constructor
  · intro h
    refine ⟨fun p => ?_, h.answers, h.toStation, h.toLine, h.active, h.staged, h.profiles, h.templates⟩
    cases p
    · exact h.lineControl
    · exact h.stationControl
  · rintro ⟨control, answers, toStation, toLine, active, staged, profiles, templates⟩
    exact ⟨control .line, control .station, answers, toStation, toLine, active, staged, profiles, templates⟩

section
variable {s t : State}

/-- Control queues that did not grow still fit. -/
theorem State.ControlFits.shrink (h : s.ControlFits) (line : t.line.control.length ≤ s.line.control.length)
    (station : t.station.control.length ≤ s.station.control.length) : t.ControlFits := by
  intro p
  cases p
  · exact line.trans (h .line)
  · exact station.trans (h .station)

theorem State.controlQueue_place (s : State) (p q : Port) (f : CtlFrame) :
    (s.place p f).controlQueue q = if q = p then s.controlQueue q ++ [f] else s.controlQueue q := by
  cases p <;> cases q <;> rfl

theorem Cmd.own_controlQueue (k : Cmd) (c : Ctl) (s : State) (q : Port) :
    (k.own c s).state.controlQueue q = s.controlQueue q := by
  obtain ⟨line, -, -, station, -⟩ := k.own_session c s
  cases q
  · exact line
  · exact station

/-- The judging places one frame, on the port of the arrival. -/
theorem Judgement.controlQueue {c : Ctl} (j : Judgement s c t) :
    ∃ f, ∀ q, t.controlQueue q = if q = c.port then s.controlQueue q ++ [f] else s.controlQueue q := by
  cases j
  case answered x body => exact ⟨_, fun q => State.controlQueue_place s c.port q _⟩
  case served k x body =>
    exact ⟨_, fun q => (State.controlQueue_place _ c.port q _).trans (by rw [k.own_controlQueue c s])⟩
  case bound lease range x body => exact ⟨_, fun q => State.controlQueue_place s c.port q _⟩
  case executed k b present x body =>
    exact ⟨_, fun q => (State.controlQueue_place _ c.port q _).trans (by rw [k.own_controlQueue c s])⟩
  case unbound f => exact ⟨f, fun q => State.controlQueue_place s c.port q f⟩
  case replayed b present f => exact ⟨f, fun q => State.controlQueue_place s c.port q f⟩

theorem Judgement.controlFits {c : Ctl} (j : Judgement s c t) (h : s.ControlFits)
    (room : (s.controlQueue c.port).length < controlCap c.port) : t.ControlFits := by
  obtain ⟨f, placed⟩ := j.controlQueue
  intro p
  rw [placed p]
  split
  · next arrival =>
    rw [arrival, List.length_append]
    exact room
  · exact h p

theorem State.mapCounters_controlQueue (s : State) (p q : Port) (f : PortCounters → PortCounters) :
    (s.mapCounters p f).controlQueue q = s.controlQueue q := by
  cases p <;> cases q <;> rfl

theorem State.setRx_controlQueue (s : State) (p q : Port) (x : Option Frame) :
    (s.setRx p x).controlQueue q = s.controlQueue q := by
  cases p <;> cases q <;> rfl

theorem State.ControlFits.mapCounters (h : s.ControlFits) (p : Port) (f : PortCounters → PortCounters) :
    (s.mapCounters p f).ControlFits := fun q => by
  rw [State.mapCounters_controlQueue]
  exact h q

theorem State.ControlFits.setRx (h : s.ControlFits) (p : Port) (x : Option Frame) : (s.setRx p x).ControlFits :=
  fun q => by
    rw [State.setRx_controlQueue]
    exact h q

theorem State.ControlFits.consume (h : s.ControlFits) (c : Ctl) : (s.consume c).ControlFits := by
  have counted : ((s.countReceived c.port).countConsumed c.port).ControlFits := (h.mapCounters _ _).mapCounters _ _
  refine State.respond_kept _ _ (counted.shrink (by simp) (by simp)) (counted.shrink (by simp) (by simp)) ?_
  exact fun _ room => (State.judge_judgement _ c).controlFits counted room

theorem State.ControlFits.abandon (h : s.ControlFits) (p : Port) (a : Option Frame) : (s.abandon p a).ControlFits := by
  unfold State.abandon
  split
  · exact (h.setRx p none).mapCounters _ _
  · exact h

theorem State.ControlFits.joinToStation (h : s.ControlFits) (f : Frame) : (s.joinToStation f).ControlFits := by
  unfold State.joinToStation
  repeat' split
  · exact h.mapCounters _ _
  · exact h.mapCounters _ _
  · exact h

theorem State.ControlFits.joinToLine (h : s.ControlFits) (f : Frame) : (s.joinToLine f).ControlFits := by
  unfold State.joinToLine
  repeat' split
  · exact h.mapCounters _ _
  · exact h.mapCounters _ _
  · exact h

theorem State.ControlFits.traffic (h : s.ControlFits) (p : Port) (f : Frame) : (s.traffic p f).ControlFits :=
  State.traffic_kept p f h (fun _ => h.joinToStation f) (h.joinToLine f) (fun _ => h) (fun _ _ => h)
    (fun u t hu => hu.shrink (by simp) (by simp)) (fun _ _ _ hu _ => hu) (fun _ _ hu => hu)
    (fun u x hu => hu.shrink (by simp) (by simp))

/-- A reset empties the control queues. -/
theorem State.takeReset_controlFits (due : s.resetDue = true) : s.takeReset.ControlFits := by
  have emptied : s.takeReset.line.control = [] ∧ s.takeReset.station.control = [] := by
    unfold State.takeReset
    split
    · next none => simp [State.resetDue, none] at due
    · unfold State.warmReset
      split <;> simp [State.warmClear]
    · exact ⟨rfl, rfl⟩
  intro p
  cases p
  · simp [State.controlQueue, emptied]
  · simp [State.controlQueue, emptied]

/-- A notice is offered only where the line control queue has room. -/
theorem State.ControlFits.noticeOffer (h : s.ControlFits) (due : s.offerDue = true) : s.noticeOffer.ControlFits := by
  have room : s.line.control.length < 4 := by
    simp only [State.offerDue, Config.lineControlCap, Bool.and_eq_true] at due
    exact of_decide_eq_true due.2
  unfold State.noticeOffer
  split
  · unfold State.sendNotice
    split
    · intro p
      cases p
      · simpa [State.controlQueue, controlCap, Config.lineControlCap] using room
      · exact h .station
    · refine State.ControlFits.mapCounters ?_ _ _
      exact h
  · exact h

theorem State.ControlFits.lineDone (h : s.ControlFits) (x : LineSource) :
    (((s.endLineTx .completed).countTransmitted .line).leaveLine x).ControlFits := by
  refine h.shrink ?_ ?_
  · cases x <;> simp [State.leaveLine, State.countTransmitted, State.mapCounters, State.endLineTx]
  · cases x <;> simp [State.leaveLine, State.countTransmitted, State.mapCounters, State.endLineTx]

theorem State.ControlFits.stationDone (h : s.ControlFits) (x : StationSource) :
    (((s.endStationTx .completed).countTransmitted .station).leaveStation x).ControlFits := by
  refine h.shrink ?_ ?_
  · cases x <;> simp [State.leaveStation, State.countTransmitted, State.mapCounters, State.endStationTx]
  · cases x <;> simp [State.leaveStation, State.countTransmitted, State.mapCounters, State.endStationTx]

theorem State.ControlFits.loseLine (h : s.ControlFits) : s.loseLine.ControlFits :=
  h.shrink (by simp [State.loseLine])
    (by simp [State.loseLine, State.countLinkDown, State.mapCounters])

theorem State.ControlFits.loseStation (h : s.ControlFits) : s.loseStation.ControlFits :=
  h.shrink (by simp [State.loseStation, State.countLinkDown, State.mapCounters])
    (by simp [State.loseStation])

end

/-- Every change of the state that a step is made of keeps the control queues within their capacities. -/
theorem keepsControlFits : State.Kept State.ControlFits (fun _ => True) where
  pend _ _ _ h := h
  elapse _ h := h
  hard _ _ _ _ _ p := by cases p <;> exact Nat.zero_le _
  low _ h := by
    refine h.shrink ?_ ?_
    · simp [State.setRx, State.endLineTx]
    · simp [State.setRx, State.endStationTx, State.countReleaseCut_station]
  lineLoss _ a h := (h.abandon .line a).loseLine
  lineEvent _ _ h := h.shrink (by simp) (by simp)
  lineRegain _ h := h
  stationLoss _ a h := (h.abandon .station a).loseStation.shrink (by simp) (by simp)
  stationRegain _ h := h
  consume _ p c h := (h.setRx p none).consume c
  intakeError _ p h := (h.setRx p none).mapCounters _ _
  traffic _ p f h := State.ControlFits.traffic ((h.setRx p none).mapCounters _ _) p f
  pulse _ h := h
  attempt _ h _ _ _ := h.shrink (by simp) (by simp)
  rest _ h _ _ := h
  delay _ h _ := h
  expiry _ _ h _ := h
  lineDone _ x h _ := h.lineDone x
  stationDone _ x h _ := h.stationDone x
  endBinding _ h := h
  retransmit _ h := h
  reset _ _ due := State.takeReset_controlFits due
  releaseEnd _ h _ := h
  drainEnd _ h _ := h.shrink (by simp) (by simp)
  delivery _ h _ := h
  line _ h _ := h
  station _ h _ := h
  offer _ h due := h.noticeOffer due

end Sys2Proof.Machine
end

section
/-! The capacities of the tables and of the queues of traffic, the laws of the notice queue and those of the binding
record are kept by every step. -/

namespace Sys2Proof.Machine

/-! ## What the changes of state leave of the context -/

section
variable (s : State)

@[simp] theorem State.changeState_ctx (e : StationState) (c : Cause) :
    (s.changeState e c).ctx = { s.ctx with station := e } := by
  simp [State.changeState]

@[simp] theorem State.enterWaking_ctx (c : Cause) : (s.enterWaking c).ctx = { s.ctx with station := .waking } := by
  simp [State.enterWaking]

@[simp] theorem State.wakeDecision_profiles (c : Cause) : (s.wakeDecision c).ctx.profiles = s.ctx.profiles := by
  unfold State.wakeDecision
  repeat' split
  all_goals simp

@[simp] theorem State.lineLinkEvent_profiles (up : Bool) : (s.lineLinkEvent up).ctx.profiles = s.ctx.profiles := by
  unfold State.lineLinkEvent
  dsimp only
  repeat' split
  all_goals simp

@[simp] theorem State.sleepAtLoss_profiles : s.sleepAtLoss.ctx.profiles = s.ctx.profiles := by
  unfold State.sleepAtLoss
  repeat' split
  all_goals simp

@[simp] theorem State.endAttempt_profiles : s.endAttempt.ctx.profiles = s.ctx.profiles := by
  unfold State.endAttempt
  dsimp only
  split <;> simp

@[simp] theorem State.dozeMove_profiles : s.dozeMove.ctx.profiles = s.ctx.profiles := by
  unfold State.dozeMove
  split <;> simp

@[simp] theorem State.endSleep_profiles : s.endSleep.ctx.profiles = s.ctx.profiles := by
  unfold State.endSleep
  dsimp only
  split <;> simp

@[simp] theorem State.drainEnd_profiles : s.drainEnd.ctx.profiles = s.ctx.profiles := by
  unfold State.drainEnd
  split <;> simp

end

/-! ## The capacities of the tables and of the queues of traffic -/

section
variable {s t : State}

theorem commitTable_length (a : List ActiveEntry) (b : List StagedEntry) : (commitTable a b).length = a.length :=
  (commitTable_spec a b).1

theorem OwnerChange.tablesFit {source : Mac} (change : OwnerChange s source t) (h : s.TablesFit) : t.TablesFit := by
  cases change
  case commit => simpa [State.TablesFit, Classifier.commit, commitTable_length, unstaged] using h
  case clearRules => simpa [State.TablesFit, State.clearRules] using h
  all_goals
    simpa [State.TablesFit, State.setProfile, State.setTemplate, State.clearPorts, State.clearAnswers, unstaged]
      using h

theorem State.TablesFit.mapCounters (h : s.TablesFit) (p : Port) (f : PortCounters → PortCounters) :
    (s.mapCounters p f).TablesFit := by
  simpa [State.TablesFit] using h

theorem State.TablesFit.consume (h : s.TablesFit) (c : Ctl) : (s.consume c).TablesFit :=
  State.consume_kept c h (fun _ _ hu change => change.tablesFit hu) (fun _ p f hu => hu.mapCounters p f)
    (fun _ _ hu => hu) (fun u p f hu => by simpa [State.TablesFit] using hu) (fun _ _ hu => hu)

theorem State.TablesFit.compose (h : s.TablesFit) (f : Frame) (i : Fin 16) : (s.compose f i).TablesFit := by
  unfold State.compose
  dsimp only
  split
  · exact h
  · split
    · exact h
    · split
      · exact h
      · next room =>
        obtain ⟨-, rest⟩ := h
        simp only [Config.answerCap] at room
        refine ⟨?_, rest⟩
        simp only [State.answers_setAnswers, List.length_append, List.length_singleton]
        omega

theorem State.TablesFit.joinToStation (h : s.TablesFit) (f : Frame) : (s.joinToStation f).TablesFit := by
  unfold State.joinToStation
  split
  · exact h.mapCounters _ _
  · split
    · exact h.mapCounters _ _
    · next room =>
      obtain ⟨answers, -, rest⟩ := h
      simp only [Config.transitCap] at room
      refine ⟨answers, ?_, rest⟩
      simp only [State.transit_setTransit, List.length_append, List.length_singleton]
      omega

theorem State.TablesFit.joinToLine (h : s.TablesFit) (f : Frame) : (s.joinToLine f).TablesFit := by
  unfold State.joinToLine
  split
  · exact h.mapCounters _ _
  · split
    · exact h.mapCounters _ _
    · next room =>
      obtain ⟨answers, toStation, -, rest⟩ := h
      simp only [Config.transitCap] at room
      refine ⟨answers, toStation, ?_, rest⟩
      simp only [State.transit_setTransit, List.length_append, List.length_singleton]
      omega

theorem State.TablesFit.traffic (h : s.TablesFit) (p : Port) (f : Frame) : (s.traffic p f).TablesFit :=
  State.traffic_kept p f h (fun _ => h.joinToStation f) (h.joinToLine f)
    (fun i => by simpa [State.TablesFit, Classifier.countMatch] using h) (fun _ _ => h) (fun _ i hu => hu.compose f i)
    (fun _ _ _ hu _ => hu) (fun _ _ hu => hu) (fun u x hu => by simpa [State.TablesFit] using hu)

/-- A WARM reset empties the queues of traffic and keeps the tables (R163). -/
theorem State.TablesFit.warmReset (h : s.TablesFit) : s.warmReset.TablesFit := by
  obtain ⟨-, -, -, tables⟩ := h
  unfold State.warmReset
  split <;> simpa [State.TablesFit, State.warmClear, Transit.empty] using tables

theorem State.TablesFit.takeReset (h : s.TablesFit) : s.takeReset.TablesFit := by
  unfold State.takeReset
  split
  · exact h
  · exact h.warmReset
  · simp [State.coldReset, State.blocksReset, State.TablesFit, AnswerGen.initial, Classifier.initial,
      Context.initial, Transit.empty, Config.ruleEntries, Config.profiles, Config.templates]

/-- A queue of traffic that lost its head, or all of its frames, still fits. -/
theorem State.TablesFit.shrink (h : s.TablesFit) (answers : t.answers.queue.length ≤ s.answers.queue.length)
    (toStation : t.transit.toStation.length ≤ s.transit.toStation.length)
    (toLine : t.transit.toLine.length ≤ s.transit.toLine.length) (templates : t.answers.templates = s.answers.templates)
    (rules : t.rules = s.rules) (profiles : t.ctx.profiles = s.ctx.profiles) : t.TablesFit := by
  obtain ⟨h1, h2, h3, rest⟩ := h
  refine ⟨answers.trans h1, toStation.trans h2, toLine.trans h3, ?_⟩
  rw [templates, rules, profiles]
  exact rest

theorem State.TablesFit.lineDone (h : s.TablesFit) (x : LineSource) :
    (((s.endLineTx .completed).countTransmitted .line).leaveLine x).TablesFit := by
  cases x <;> refine h.shrink ?_ ?_ ?_ ?_ ?_ ?_ <;> simp [State.leaveLine]

theorem State.TablesFit.stationDone (h : s.TablesFit) (x : StationSource) :
    (((s.endStationTx .completed).countTransmitted .station).leaveStation x).TablesFit := by
  cases x <;> refine h.shrink ?_ ?_ ?_ ?_ ?_ ?_ <;> simp [State.leaveStation]

theorem State.TablesFit.loseLine (h : s.TablesFit) : s.loseLine.TablesFit :=
  h.shrink (by simp [State.loseLine]) (by simp [State.loseLine]) (by simp [State.loseLine]) (by simp [State.loseLine])
    (by simp) (by simp)

theorem State.TablesFit.loseStation (h : s.TablesFit) : s.loseStation.TablesFit :=
  h.shrink (by simp) (by simp [State.loseStation]) (by simp [State.loseStation]) (by simp) (by simp) (by simp)

end

/-- Every change of the state that a step is made of keeps the tables' lengths and the queues of traffic within their
capacities. -/
theorem keepsTablesFit : State.Kept State.TablesFit (fun _ => True) where
  pend _ _ _ h := h
  elapse _ h := h
  hard _ _ _ _ _ := by
    simp [State.blocksReset, State.TablesFit, AnswerGen.initial, Classifier.initial, Context.initial, Transit.empty,
      Config.ruleEntries, Config.profiles, Config.templates]
  low _ h := by simpa [State.TablesFit] using h
  lineLoss _ _ h := State.TablesFit.loseLine (by simpa [State.TablesFit] using h)
  lineEvent _ _ h := by simpa [State.TablesFit] using h
  lineRegain _ h := h
  stationLoss s a h := by
    have lost : ((s.abandon .station a).loseStation).TablesFit :=
      State.TablesFit.loseStation (by simpa [State.TablesFit] using h)
    simpa only [State.TablesFit, State.sleepAtLoss_keeps, State.sleepAtLoss_profiles] using lost
  stationRegain _ h := h
  consume _ _ c h := State.TablesFit.consume (by simpa [State.TablesFit] using h) c
  intakeError _ _ h := by simpa [State.TablesFit] using h
  traffic _ p f h := State.TablesFit.traffic (by simpa [State.TablesFit] using h) p f
  pulse _ h := h
  attempt _ h _ _ _ := by simpa [State.TablesFit] using h
  rest _ h _ _ := h
  delay _ h _ := h
  expiry _ _ h _ := h
  lineDone _ x h _ := h.lineDone x
  stationDone _ x h _ := h.stationDone x
  endBinding _ h := h
  retransmit _ h := h
  reset _ h _ := h.takeReset
  releaseEnd _ h _ := h
  drainEnd _ h _ := by simpa [State.TablesFit] using h
  delivery _ h _ := h
  line _ h _ := h
  station _ h _ := h
  offer _ h _ := by simpa [State.TablesFit] using h

end Sys2Proof.Machine
end

section
/-! The laws of the notice queue and those of the binding record are kept by every step. -/

namespace Sys2Proof.Machine

/-! ## The binding is the responder's -/

@[simp] theorem State.countOverrun_binding (s : State) (p : Port) :
    (s.countOverrun p).responder.binding = s.responder.binding := by
  cases p <;> rfl

@[simp] theorem State.countMalformed_binding (s : State) (p : Port) :
    (s.countMalformed p).responder.binding = s.responder.binding := by
  cases p <;> rfl

@[simp] theorem State.traffic_responder (s : State) (p : Port) (f : Frame) :
    (s.traffic p f).responder = s.responder := by
  cases p <;> simp [State.traffic]

/-! ## The notice queue -/

/-- The laws of the notice queue, as a predicate of the notice unit and of the presence of a binding. -/
def State.NoticesLawful (s : State) : Prop := s.notices.Laws s.responder.binding.isSome

section
variable {s t : State}

theorem State.NoticesLawful.raise (h : s.NoticesLawful) (body : NoticeBody) : (s.raise body).NoticesLawful :=
  NoticeUnit.Laws.raise h ..

theorem State.NoticesLawful.changeState (h : s.NoticesLawful) (e : StationState) (c : Cause) :
    (s.changeState e c).NoticesLawful :=
  NoticeUnit.Laws.raise h ..

theorem State.NoticesLawful.enterWaking (h : s.NoticesLawful) (c : Cause) : (s.enterWaking c).NoticesLawful :=
  h.changeState .waking c

theorem State.NoticesLawful.wakeDecision (h : s.NoticesLawful) (c : Cause) : (s.wakeDecision c).NoticesLawful := by
  unfold State.wakeDecision
  split
  case h_5 => exact h.enterWaking c
  case h_6 =>
    split
    · exact h.enterWaking c
    · exact h
  all_goals exact h

theorem State.NoticesLawful.dozeMove (h : s.NoticesLawful) : s.dozeMove.NoticesLawful := by
  unfold State.dozeMove
  split
  case h_3 => exact h
  case h_4 => exact h
  all_goals exact State.NoticesLawful.changeState (by exact h) ..

theorem State.NoticesLawful.endSleep (h : s.NoticesLawful) : s.endSleep.NoticesLawful := by
  unfold State.endSleep
  dsimp only
  split <;> exact State.NoticesLawful.changeState (by exact h) ..

theorem OwnerChange.noticesLawful {source : Mac} (change : OwnerChange s source t) (h : s.NoticesLawful) :
    t.NoticesLawful := by
  cases change
  case wake => exact h.wakeDecision _
  case acknowledge n rest queue => exact NoticeUnit.Laws.drop h queue rfl rfl rfl
  case mask m => exact NoticeUnit.Laws.mask h m
  case doze i defined => exact State.NoticesLawful.dozeMove h
  case resume away => exact h.endSleep
  all_goals exact h

theorem State.NoticesLawful.place (h : s.NoticesLawful) (p : Port) (f : CtlFrame) : (s.place p f).NoticesLawful := by
  simpa [State.NoticesLawful] using h

theorem State.NoticesLawful.bind (h : s.NoticesLawful) (b : Binding) : (s.setBinding (some b)).NoticesLawful :=
  NoticeUnit.Laws.bindOk h

theorem State.NoticesLawful.endBinding (h : s.NoticesLawful) : s.endBinding.NoticesLawful :=
  NoticeUnit.Laws.unbound h false

theorem Judgement.noticesLawful {c : Ctl} (j : Judgement s c t) (h : s.NoticesLawful) : t.NoticesLawful := by
  cases j
  case answered x body => exact h.place ..
  case served k x body => exact State.NoticesLawful.place ((k.own_change c s).noticesLawful h) ..
  case bound lease range x body => exact (h.place ..).bind _
  case executed k b present x body => exact (State.NoticesLawful.place ((k.own_change c s).noticesLawful h) ..).bind _
  case unbound f => exact (h.place ..).endBinding
  case replayed b present f => exact (h.place ..).bind _

theorem State.NoticesLawful.mapCounters (h : s.NoticesLawful) (p : Port) (f : PortCounters → PortCounters) :
    (s.mapCounters p f).NoticesLawful := by
  simpa [State.NoticesLawful] using h

theorem State.NoticesLawful.consume (h : s.NoticesLawful) (c : Ctl) : (s.consume c).NoticesLawful := by
  have counted : ((s.countReceived c.port).countConsumed c.port).NoticesLawful := (h.mapCounters ..).mapCounters ..
  refine State.respond_kept _ _ ?_ ?_ fun _ _ => (State.judge_judgement _ c).noticesLawful counted
  · simpa [State.NoticesLawful] using counted
  · simpa [State.NoticesLawful] using counted

theorem State.NoticesLawful.traffic (h : s.NoticesLawful) (p : Port) (f : Frame) : (s.traffic p f).NoticesLawful :=
  State.traffic_kept p f h (fun _ => by simpa [State.NoticesLawful] using h) (by simpa [State.NoticesLawful] using h)
    (fun _ => h) (fun _ _ => h) (fun u i hu => by simpa [State.NoticesLawful] using hu) (fun _ _ _ hu _ => hu)
    (fun _ b hu => hu.raise b) (fun _ x hu => hu.wakeDecision x)

theorem State.NoticesLawful.lineLinkEvent (h : s.NoticesLawful) (up : Bool) : (s.lineLinkEvent up).NoticesLawful := by
  unfold State.lineLinkEvent
  dsimp only
  repeat' split
  all_goals first | exact h.raise _ | exact (h.raise _).wakeDecision _

theorem State.NoticesLawful.sleepAtLoss (h : s.NoticesLawful) : s.sleepAtLoss.NoticesLawful := by
  unfold State.sleepAtLoss
  split
  case h_1 => exact State.NoticesLawful.changeState (by exact h) ..
  case h_2 => exact State.NoticesLawful.changeState (by exact h) ..
  case h_3 =>
    split
    · exact State.NoticesLawful.enterWaking (by exact h) ..
    · exact h.changeState ..
  all_goals exact h

theorem State.NoticesLawful.endAttempt (h : s.NoticesLawful) : s.endAttempt.NoticesLawful := by
  unfold State.endAttempt
  dsimp only
  split
  · exact h
  · exact (State.NoticesLawful.changeState (by exact h) ..).raise _

theorem State.NoticesLawful.drainEnd (h : s.NoticesLawful) : s.drainEnd.NoticesLawful := by
  unfold State.drainEnd
  split
  · exact State.NoticesLawful.enterWaking (by exact h) ..
  · exact h.changeState ..

theorem NoticeUnit.Laws.initial (bound : Bool) : NoticeUnit.initial.Laws bound := by
  refine ⟨?_, ?_, ?_, ?_, ?_, ?_⟩ <;> simp [NoticeUnit.initial]

theorem State.warmClear_bound (s : State) : s.warmClear.responder.binding = s.responder.binding := by
  simp [State.warmClear]

theorem State.NoticesLawful.takeReset (h : s.NoticesLawful) : s.takeReset.NoticesLawful := by
  have cleared : s.warmClear.NoticesLawful := by
    simpa [State.NoticesLawful, State.warmClear_bound] using h
  unfold State.takeReset
  split
  · exact h
  · unfold State.warmReset
    split
    · exact cleared
    · exact cleared.raise _
  · exact NoticeUnit.Laws.initial _

/-- What makes an offer due (R170). -/
theorem State.offerDue_iff (s : State) :
    s.offerDue = true ↔ ∃ n rest b, s.notices.queue = n :: rest ∧ n.transmissions < 4 ∧
      s.responder.binding = some b ∧ s.notices.timer = .stopped ∧ s.line.control.length < 4 := by
  cases queue : s.notices.queue with
  | nil => simp [State.offerDue, queue]
  | cons n rest =>
    cases bound : s.responder.binding with
    | none => simp [State.offerDue, bound]
    | some b =>
      simp only [State.offerDue, queue, bound, Bool.and_eq_true, decide_eq_true_eq, beq_iff_eq]
      simp [Config.maxTransmissions, Config.lineControlCap, and_assoc]

/-- The offer counts a transmission of the head, which was below four, under a binding. -/
theorem State.NoticesLawful.noticeOffer (h : s.NoticesLawful) (due : s.offerDue = true) :
    s.noticeOffer.NoticesLawful := by
  obtain ⟨n, rest, b, queue, few, bound, -, -⟩ := s.offerDue_iff.1 due
  have offered : s.noticeOffer.notices =
      { s.notices with
        queue := { n with transmissions := n.transmissions + 1 } :: rest, timer := .running Config.retransmitMs } := by
    simp [State.noticeOffer, queue, bound]
  unfold State.NoticesLawful
  rw [offered, (State.noticeOffer_keeps s).2.2.2.2.2.2.2.2.2.2.2.1]
  exact NoticeUnit.Laws.head h queue rfl rfl (by omega) (fun _ => by simp [bound]) (fun _ => by omega)

end

/-- Every change of the state that a step is made of keeps the laws of the notice queue. -/
theorem keepsNotices : State.Kept State.NoticesLawful (fun _ => True) where
  pend _ _ _ h := h
  elapse s h := by
    have unbound : s.elapse.responder.binding.isSome = s.responder.binding.isSome := by simp [State.elapse]
    unfold State.NoticesLawful
    rw [unbound]
    exact ⟨h.size, h.serials, h.waiting, h.spent, h.bound, fun running =>
      h.running (by simpa [State.elapse] using running)⟩
  hard _ _ _ _ _ := NoticeUnit.Laws.initial _
  low _ h := by simpa [State.NoticesLawful] using h
  lineLoss _ _ h := by simpa [State.NoticesLawful] using h
  lineEvent _ up h := h.lineLinkEvent up
  lineRegain _ h := h
  stationLoss _ _ h := State.NoticesLawful.sleepAtLoss (by simpa [State.NoticesLawful] using h)
  stationRegain _ h := h
  consume _ _ c h := State.NoticesLawful.consume (by simpa [State.NoticesLawful] using h) c
  intakeError _ _ h := by simpa [State.NoticesLawful] using h
  traffic _ p f h := State.NoticesLawful.traffic (by simpa [State.NoticesLawful] using h) p f
  pulse _ h := h
  attempt _ h _ _ _ := h.endAttempt
  rest _ h _ _ := h
  delay _ h _ := h
  expiry _ _ h _ := h
  lineDone _ _ h _ := by simpa [State.NoticesLawful] using h
  stationDone _ _ h _ := by simpa [State.NoticesLawful] using h
  endBinding _ h := h.endBinding
  retransmit _ h := NoticeUnit.Laws.retransmit h
  reset _ h _ := h.takeReset
  releaseEnd _ h _ := State.NoticesLawful.changeState (by exact h) ..
  drainEnd _ h _ := h.drainEnd
  delivery _ h _ := h
  line _ h _ := h
  station _ h _ := h
  offer _ h due := h.noticeOffer due

/-! ## The binding record -/

/-- The laws of a present binding record (R132). -/
structure Binding.Lawful (b : Binding) : Prop where
  individual : groupBit b.manager = false
  lease : 5 ≤ b.lease ∧ b.lease ≤ 600
  remaining : b.remaining ≤ b.lease * 1000
  cached : b.cached.seq = b.lastSeq ∧ b.cached.kind = 2

/-- The binding record, where there is one, is lawful. -/
def State.BindingLawful (s : State) : Prop := ∀ b, s.responder.binding = some b → b.Lawful

theorem State.bindingLaws_iff (s : State) : s.BindingLaws ↔ s.BindingLawful :=
  ⟨fun h b present => ⟨h.individual b present, h.lease b present, h.remaining b present, h.cached b present⟩,
    fun h => ⟨fun b present => (h b present).individual, fun b present => (h b present).lease,
      fun b present => (h b present).remaining, fun b present => (h b present).cached⟩⟩

section
variable {s t : State}

theorem State.bindingLawful_of_none (h : s.responder.binding = none) : s.BindingLawful := by
  intro b present
  rw [h] at present
  cases present

theorem State.BindingLawful.of_eq (h : s.BindingLawful) (same : t.responder.binding = s.responder.binding) :
    t.BindingLawful := fun b present => h b (same ▸ present)

theorem State.BindingLawful.setBinding {b : Binding} (h : b.Lawful) : (s.setBinding (some b)).BindingLawful := by
  intro x present
  cases present
  exact h

theorem Cmd.own_binding (k : Cmd) (c : Ctl) (s : State) :
    (k.own c s).state.responder.binding = s.responder.binding := by
  obtain ⟨-, -, -, -, -, -, -, -, same, -, -⟩ := k.own_session c s
  exact same

/-- The judging of a frame from an individual address. -/
theorem Judgement.bindingLawful {c : Ctl} (j : Judgement s c t) (h : s.BindingLawful)
    (individual : groupBit c.source = false) : t.BindingLawful := by
  cases j
  case answered x body => exact h.of_eq (by simp)
  case served k x body => exact h.of_eq (by simp [k.own_binding c s])
  case bound lease range x body => exact .setBinding ⟨individual, range, le_rfl, rfl, rfl⟩
  case executed k b present x body =>
    have law := h b present
    exact .setBinding ⟨law.individual, law.lease, le_rfl, rfl, rfl⟩
  case unbound f => exact State.bindingLawful_of_none rfl
  case replayed b present f =>
    have law := h b present
    exact .setBinding ⟨law.individual, law.lease, le_rfl, law.cached⟩

theorem State.BindingLawful.consume (h : s.BindingLawful) (c : Ctl) : (s.consume c).BindingLawful := by
  have counted : ((s.countReceived c.port).countConsumed c.port).BindingLawful := h.of_eq (by simp)
  refine State.respond_kept _ _ ?_ ?_ fun individual _ =>
    (State.judge_judgement _ c).bindingLawful counted individual
  · exact counted.of_eq (by simp)
  · exact counted.of_eq (by simp)

theorem State.BindingLawful.takeReset (h : s.BindingLawful) : s.takeReset.BindingLawful := by
  unfold State.takeReset
  split
  · exact h
  · refine h.of_eq ?_
    unfold State.warmReset
    split <;> simp [State.warmClear_bound]
  · exact State.bindingLawful_of_none rfl

/-- A millisecond shortens what remains of the lease and nothing else of the binding. -/
theorem State.BindingLawful.elapse (h : s.BindingLawful) : s.elapse.BindingLawful := by
  intro x present
  simp only [State.elapse, Option.map_eq_some_iff] at present
  obtain ⟨b, before, rfl⟩ := present
  have law := h b before
  exact ⟨law.individual, law.lease, (Nat.sub_le ..).trans law.remaining, law.cached⟩

end

/-- Every change of the state that a step is made of keeps the laws of the binding record. -/
theorem keepsBinding : State.Kept State.BindingLawful (fun _ => True) where
  pend _ _ _ h := h
  elapse _ h := h.elapse
  hard _ _ _ _ _ := State.bindingLawful_of_none rfl
  low _ h := h.of_eq (by simp)
  lineLoss _ _ h := h.of_eq (by simp)
  lineEvent _ _ h := h.of_eq (by simp)
  lineRegain _ h := h
  stationLoss _ _ h := h.of_eq (by simp)
  stationRegain _ h := h
  consume _ _ c h := State.BindingLawful.consume (h.of_eq (by simp)) c
  intakeError _ _ h := h.of_eq (by simp)
  traffic _ _ _ h := h.of_eq (by simp)
  pulse _ h := h
  attempt _ h _ _ _ := h.of_eq (by simp)
  rest _ h _ _ := h
  delay _ h _ := h
  expiry _ _ h _ := h
  lineDone _ _ h _ := h.of_eq (by simp)
  stationDone _ _ h _ := h.of_eq (by simp)
  endBinding _ _ := State.bindingLawful_of_none rfl
  retransmit _ h := h
  reset _ h _ := h.takeReset
  releaseEnd _ h _ := h
  drainEnd _ h _ := h.of_eq (by simp)
  delivery _ h _ := h
  line _ h _ := h
  station _ h _ := h
  offer _ h _ := h.of_eq (by simp)

/-- Settles O57: every change of the state that a step is made of keeps the capacities (`keepsControlFits`,
`keepsTablesFit`), the laws of the notice queue (`keepsNotices`) and those of the binding (`keepsBinding`). -/
theorem stepsKeepQueuesAndSession : Obligations.StepsKeepQueuesAndSession := by
  intro s t capacities notices binding he
  obtain ⟨control, tables⟩ := s.capacities_iff.1 capacities
  refine ⟨t.capacities_iff.2 ⟨?_, ?_⟩, t.noticeLaws_iff.2 ?_, t.bindingLaws_iff.2 ?_⟩
  · exact keepsControlFits.step control (fun _ _ => trivial) he
  · exact keepsTablesFit.step tables (fun _ _ => trivial) he
  · exact keepsNotices.step (s.noticeLaws_iff.1 notices) (fun _ _ => trivial) he
  · exact keepsBinding.step (s.bindingLaws_iff.1 binding) (fun _ _ => trivial) he

end Sys2Proof.Machine
end

section
/-! The laws of the station context are kept by every step. -/

namespace Sys2Proof.Machine

/-! ## Changes that the laws allow -/

section
variable {s t : State}

/-- The laws of the station context depend on the context, the hold list, the L→S transit queue and the release delay
timer alone. -/
theorem State.ContextLaws.of_eq (h : s.ContextLaws) (ctx : t.ctx = s.ctx) (list : t.hold.list = s.hold.list)
    (toStation : t.transit.toStation = s.transit.toStation) (timer : t.releaseTimer = s.releaseTimer) :
    t.ContextLaws := by
  refine ⟨?_, ?_, ?_, ?_, ?_, ?_⟩
  · rw [ctx, list]
    exact h.awake
  · rw [ctx, list, toStation]
    exact h.quiet
  · rw [ctx]
    exact h.pending
  · rw [ctx]
    exact h.governed
  · rw [ctx]
    exact h.defined
  · rw [ctx, timer]
    exact h.timed

/-- A store that lost descriptors, or outside AWAKE gained HELD ones. -/
theorem State.ContextLaws.setHold (h : s.ContextLaws) (x : HoldStore)
    (awake : s.ctx.station = .awake → x.list = []) (old : ∀ d ∈ x.list, d ∈ s.hold.list ∨ d.state = .held) :
    (s.setHold x).ContextLaws where
  awake := awake
  quiet quiet := ⟨(h.quiet quiet).1, fun d hd => (old d hd).elim ((h.quiet quiet).2 d) id⟩
  pending := h.pending
  governed := h.governed
  defined := h.defined
  timed := h.timed

theorem State.ContextLaws.remove (h : s.ContextLaws) (sel : Descriptor → Bool) (why : Leave) (k : Configs) :
    (s.setHold ({ s.hold with configs := k }.remove sel why)).ContextLaws := by
  obtain ⟨list, -⟩ := HoldStore.remove_parts { s.hold with configs := k } sel why
  refine h.setHold _ (fun awake => ?_) fun d hd => .inl ?_
  · rw [list]
    simp [h.awake awake]
  · rw [list] at hd
    exact List.mem_of_mem_filter hd

theorem State.ContextLaws.removeFirst (h : s.ContextLaws) (sel : Descriptor → Bool) (why : Leave) :
    (s.setHold (s.hold.removeFirst sel why)).ContextLaws := by
  refine h.setHold _ (fun awake => ?_) fun d hd => .inl (HoldStore.removeFirst_mem _ _ _ d hd)
  rw [HoldStore.removeFirst_none why (by simp [h.awake awake])]
  exact h.awake awake

/-- Frames leave the L→S transit queue in any state. -/
theorem State.ContextLaws.setTransit (h : s.ContextLaws) (x : Transit)
    (empty : s.transit.toStation = [] → x.toStation = []) : (s.setTransit x).ContextLaws where
  awake := h.awake
  quiet quiet := ⟨empty (h.quiet quiet).1, (h.quiet quiet).2⟩
  pending := h.pending
  governed := h.governed
  defined := h.defined
  timed := h.timed

/-- What the entered state asks for. -/
theorem State.ContextLaws.enter {e : StationState} (cause : Cause) (awake : e = .awake → s.hold.list = [])
    (quiet : e = .asleep ∨ e = .waking ∨ e = .unresponsive →
      s.transit.toStation = [] ∧ ∀ d ∈ s.hold.list, d.state = .held)
    (pending : s.ctx.wakePending = true → e = .dozing) (governed : e ≠ .awake → s.ctx.active ≠ .none)
    (defined : ∀ i, s.ctx.active = .record i → (s.ctx.profiles.getD i.val none).isSome = true)
    (timed : s.releaseTimer ≠ .stopped ↔ e = .releasing) : (s.changeState e cause).ContextLaws :=
  ⟨awake, quiet, pending, governed, defined, timed⟩

/-- Outside DOZING no wake decision is pending. -/
theorem State.ContextLaws.notPending (h : s.ContextLaws) (other : s.ctx.station ≠ .dozing) :
    s.ctx.wakePending = false := by
  cases pending : s.ctx.wakePending
  · rfl
  · exact absurd (h.pending pending) other

/-- Outside RELEASING the release delay timer is stopped. -/
theorem State.ContextLaws.stopped (h : s.ContextLaws) (other : s.ctx.station ≠ .releasing) :
    s.releaseTimer = .stopped := by
  by_contra running
  exact other (h.timed.1 running)

/-- WAKING is entered from a state in which nothing goes to the station, with no decision pending. -/
theorem State.ContextLaws.enterWaking (cause : Cause) (toStation : s.transit.toStation = [])
    (held : ∀ d ∈ s.hold.list, d.state = .held) (pending : s.ctx.wakePending = false)
    (governed : s.ctx.active ≠ .none)
    (defined : ∀ i, s.ctx.active = .record i → (s.ctx.profiles.getD i.val none).isSome = true)
    (stopped : s.releaseTimer = .stopped) : (s.enterWaking cause).ContextLaws := by
  have entered : (s.changeState .waking cause).ContextLaws :=
    .enter cause (by simp) (fun _ => ⟨toStation, held⟩) (by simp [pending]) (fun _ => governed) defined
      (by simp [stopped])
  exact entered.of_eq rfl rfl rfl rfl

theorem State.ContextLaws.wakeDecision (h : s.ContextLaws) (c : Cause) : (s.wakeDecision c).ContextLaws := by
  have waken (quiet : s.ctx.station = .asleep ∨ s.ctx.station = .waking ∨ s.ctx.station = .unresponsive) :
      (s.enterWaking c).ContextLaws := by
    obtain ⟨toStation, held⟩ := h.quiet quiet
    refine .enterWaking c toStation held (h.notPending ?_) (h.governed ?_) h.defined (h.stopped ?_) <;>
      (rintro other; simp [other] at quiet)
  unfold State.wakeDecision
  split
  case h_4 dozing => exact ⟨h.awake, h.quiet, fun _ => dozing, h.governed, h.defined, h.timed⟩
  case h_5 asleep => exact waken (.inl asleep)
  case h_6 unresponsive =>
    split
    · exact waken (.inr (.inr unresponsive))
    · exact h
  all_goals exact h

/-! ## The owning blocks -/

/-- The record at a place of a list of which another place was set. -/
theorem getD_set_ne {l : List (Option Profile)} {i j : Nat} (p : Option Profile) (h : i ≠ j) :
    (l.set i p).getD j none = l.getD j none := by
  simp [List.getD_eq_getElem?_getD, List.getElem?_set_ne h]

/-- Setting a record leaves every defined record defined. -/
theorem getD_set_isSome {l : List (Option Profile)} {i j : Nat} {p : Profile} (h : (l.getD j none).isSome = true) :
    ((l.set i (some p)).getD j none).isSome = true := by
  by_cases same : i = j
  · subst same
    have inside : i < l.length := by
      by_contra outside
      simp [List.getD_eq_getElem?_getD, List.getElem?_eq_none (not_lt.1 outside)] at h
    simp [List.getD_eq_getElem?_getD, List.getElem?_set_self inside]
  · rwa [getD_set_ne _ same]

theorem State.ContextLaws.dozeMove (h : s.ContextLaws) (governed : s.ctx.active ≠ .none) :
    s.dozeMove.ContextLaws := by
  unfold State.dozeMove
  split
  case h_1 awake =>
    refine .enter _ ?_ ?_ ?_ (fun _ => governed) h.defined ?_
    · split <;> simp
    · split
      · next empty => exact fun _ => ⟨List.isEmpty_iff.1 empty, by simp [h.awake awake]⟩
      · simp
    · simp [h.notPending (by simp [awake])]
    · rw [h.stopped (by simp [awake])]
      split <;> simp
  case h_2 releasing =>
    refine .enter _ ?_ ?_ ?_ (fun _ => governed) h.defined ?_
    · split <;> simp
    · split
      · next drained => exact fun _ => State.drained_held drained
      · simp
    · simp [h.notPending (by simp [releasing])]
    · split <;> simp
  case h_5 waking =>
    exact .enter _ (by simp) (fun _ => h.quiet (.inr (.inl waking))) (by simp [h.notPending (by simp [waking])])
      (fun _ => governed) h.defined (by simp [h.stopped (by simp [waking])])
  case h_6 unresponsive =>
    exact .enter _ (by simp) (fun _ => h.quiet (.inr (.inr unresponsive)))
      (by simp [h.notPending (by simp [unresponsive])]) (fun _ => governed) h.defined
      (by simp [h.stopped (by simp [unresponsive])])
  all_goals exact h

theorem ReleaseTimer.start_ne_stopped (n : Nat) : ReleaseTimer.start n ≠ .stopped := by
  unfold ReleaseTimer.start
  split <;> simp

theorem State.ContextLaws.endSleep (h : s.ContextLaws) (away : s.ctx.station.away = true) :
    s.endSleep.ContextLaws := by
  have governed : s.ctx.active ≠ .none := h.governed fun awake => by simp [awake, StationState.away] at away
  unfold State.endSleep
  dsimp only
  split
  · next empty =>
    refine .enter _ (fun _ => List.isEmpty_iff.1 empty) (by simp) (by simp) (by simp) h.defined ?_
    have stopped := h.stopped fun releasing => by simp [releasing, StationState.away] at away
    simp [stopped]
  · exact .enter _ (by simp) (by simp) (by simp) (fun _ => governed) h.defined
      (by simp [ReleaseTimer.start_ne_stopped])

theorem OwnerChange.contextLaws {source : Mac} (change : OwnerChange s source t) (h : s.ContextLaws) :
    t.ContextLaws := by
  cases change
  case defineProfile i p record read =>
    exact ⟨h.awake, h.quiet, h.pending, h.governed, fun j active => getD_set_isSome (h.defined j active), h.timed⟩
  case undefineProfile i inactive =>
    refine ⟨h.awake, h.quiet, h.pending, h.governed, fun j active => ?_, h.timed⟩
    have record : s.ctx.active = .record j := active
    have other : i ≠ j.val := by
      rintro rfl
      simp [record, ActiveProfile.isRecord] at inactive
    exact (congrArg Option.isSome (getD_set_ne none other)).trans (h.defined j record)
  case undefineActive i awake =>
    exact ⟨h.awake, h.quiet, h.pending, fun other => absurd awake other, by simp, h.timed⟩
  case writeClass c k => exact h.remove ..
  case purge sel => exact h.remove sel .purged s.hold.configs
  case wake => exact h.wakeDecision _
  case doze i defined =>
    have learned : (s.setCtx { s.ctx with address := some source, active := .record i }).ContextLaws :=
      ⟨h.awake, h.quiet, h.pending, by simp, by rintro j ⟨⟩; exact defined, h.timed⟩
    exact learned.dozeMove (by simp)
  case resume away => exact h.endSleep away
  all_goals exact h.of_eq rfl rfl rfl rfl

theorem State.ContextLaws.consume (h : s.ContextLaws) (c : Ctl) : (s.consume c).ContextLaws :=
  State.consume_kept c h (fun _ _ hu change => change.contextLaws hu)
    (fun _ _ _ hu => hu.of_eq (by simp) (by simp) (by simp) (by simp)) (fun _ _ hu => hu.of_eq rfl rfl rfl rfl)
    (fun _ _ _ hu => hu.of_eq (by simp) (by simp) (by simp) (by simp)) (fun _ _ hu => hu.of_eq rfl rfl rfl rfl)

/-! ## Traffic -/

/-- Frames join the L→S transit queue in AWAKE. -/
theorem State.ContextLaws.joinToStation (h : s.ContextLaws) (awake : s.ctx.station = .awake) (f : Frame) :
    (s.joinToStation f).ContextLaws := by
  unfold State.joinToStation
  split
  · exact h.of_eq (by simp) (by simp) (by simp) (by simp)
  · split
    · exact h.of_eq (by simp) (by simp) (by simp) (by simp)
    · exact ⟨h.awake, by simp [awake], h.pending, h.governed, h.defined, h.timed⟩

theorem State.joinToLine_toStation (s : State) (f : Frame) :
    (s.joinToLine f).transit.toStation = s.transit.toStation := by
  unfold State.joinToLine
  repeat' split
  all_goals simp

theorem State.ContextLaws.traffic (h : s.ContextLaws) (p : Port) (f : Frame) : (s.traffic p f).ContextLaws :=
  State.traffic_kept p f h (fun awake => h.joinToStation awake f)
    (h.of_eq (by simp) (by simp) (s.joinToLine_toStation f) (by simp)) (fun _ => h.of_eq rfl rfl rfl rfl)
    (fun _ _ => h.of_eq rfl rfl rfl rfl) (fun _ _ hu => hu.of_eq (by simp) (by simp) (by simp) (by simp))
    (fun u c o hu other => hu.setHold _ (fun awake => absurd awake other) (HoldStore.offer_list u.hold c o f u.time))
    (fun _ _ hu => hu.of_eq rfl rfl rfl rfl) (fun _ x hu => hu.wakeDecision x)

/-! ## Links, timers and resets -/

theorem State.ContextLaws.lineLinkEvent (h : s.ContextLaws) (up : Bool) : (s.lineLinkEvent up).ContextLaws := by
  have raised : (s.raise (.lineLink up)).ContextLaws := h.of_eq rfl rfl rfl rfl
  unfold State.lineLinkEvent
  dsimp only
  repeat' split
  all_goals first | exact raised | exact raised.wakeDecision _

/-- After the station port's work at a link loss nothing goes to the station. -/
theorem State.loseStation_quiet (s : State) :
    s.loseStation.transit.toStation = [] ∧ ∀ d ∈ s.loseStation.hold.list, d.state = .held := by
  refine ⟨by simp [State.loseStation], ?_⟩
  rw [State.loseStation_hold]
  exact HoldStore.cutWithReturn_held _ _

theorem State.ContextLaws.loseStation (h : s.ContextLaws) : s.loseStation.ContextLaws := by
  have cut : (s.setHold (s.hold.cutWithReturn s.time)).ContextLaws := by
    refine h.setHold _ (fun awake => ?_) fun d hd => .inr (HoldStore.cutWithReturn_held _ _ d hd)
    simp [HoldStore.cutWithReturn, h.awake awake]
  refine (cut.setTransit { s.transit with toStation := [] } fun _ => rfl).of_eq ?_ ?_ ?_ ?_
  · simp
  · simp [State.loseStation_hold]
  · simp [s.loseStation_quiet.1]
  · simp

/-- The profile that a station link loss falls back on is defined. -/
theorem Context.fallback_defined (c : Context) (i : Fin 4) (active : c.fallback = .record i) :
    (c.profiles.getD i.val none).isSome = true := by
  unfold Context.fallback at active
  split at active
  · next first =>
    cases active
    exact first
  · cases active

theorem Context.fallback_ne_none (c : Context) : c.fallback ≠ .none := by
  unfold Context.fallback
  split <;> simp

theorem State.ContextLaws.sleepAtLoss (h : s.ContextLaws) (toStation : s.transit.toStation = [])
    (held : ∀ d ∈ s.hold.list, d.state = .held) : s.sleepAtLoss.ContextLaws := by
  unfold State.sleepAtLoss
  split
  case h_1 awake =>
    exact .enter _ (by simp) (fun _ => ⟨toStation, held⟩) (by simp [h.notPending (by simp [awake])])
      (fun _ => s.ctx.fallback_ne_none) s.ctx.fallback_defined (by simp [h.stopped (by simp [awake])])
  case h_2 releasing =>
    exact .enter _ (by simp) (fun _ => ⟨toStation, held⟩) (by simp [h.notPending (by simp [releasing])])
      (fun _ => s.ctx.fallback_ne_none) s.ctx.fallback_defined (by simp)
  case h_3 dozing =>
    have governed := h.governed (by simp [dozing])
    have stopped := h.stopped (by simp [dozing])
    split
    · exact .enterWaking _ toStation held rfl governed h.defined stopped
    · next pending =>
      exact .enter _ (by simp) (fun _ => ⟨toStation, held⟩) (by simp [pending]) (fun _ => governed) h.defined
        (by simp [stopped])
  all_goals exact h

/-- The end of an attempt, which is made in WAKING. -/
theorem State.ContextLaws.endAttempt (h : s.ContextLaws) (waking : s.ctx.station = .waking) :
    s.endAttempt.ContextLaws := by
  unfold State.endAttempt
  dsimp only
  split
  · exact h.of_eq rfl rfl rfl rfl
  · have entered : ((s.setWake
        { s.wake with
          line := .released, pulseTimer := .stopped, phase := .idle, attemptTimer := .stopped
          terms := none }).changeState .unresponsive .attemptsSpent).ContextLaws :=
      .enter _ (by simp) (fun _ => h.quiet (.inr (.inl waking))) (by simp [h.notPending (by simp [waking])])
        (fun _ => h.governed (by simp [waking])) h.defined (by simp [h.stopped (by simp [waking])])
    exact entered.of_eq rfl rfl rfl rfl

theorem State.ContextLaws.drainEnd (h : s.ContextLaws) (due : s.drainEndDue = true) : s.drainEnd.ContextLaws := by
  simp only [State.drainEndDue, Bool.and_eq_true, beq_iff_eq] at due
  obtain ⟨dozing, drained⟩ := due
  obtain ⟨toStation, held⟩ := State.drained_held drained
  have governed := h.governed (by simp [dozing])
  have stopped := h.stopped (by simp [dozing])
  unfold State.drainEnd
  split
  · exact .enterWaking _ toStation held rfl governed h.defined stopped
  · next pending =>
    exact .enter _ (by simp) (fun _ => ⟨toStation, held⟩) (by simp [pending]) (fun _ => governed) h.defined
      (by simp [stopped])

theorem State.ContextLaws.releaseEnd (h : s.ContextLaws) (due : s.releaseEndDue = true) :
    s.releaseEnd.ContextLaws := by
  simp only [State.releaseEndDue, Bool.and_eq_true, beq_iff_eq, List.isEmpty_iff] at due
  obtain ⟨releasing, empty⟩ := due
  exact .enter _ (fun _ => empty) (by simp) (by simp [h.notPending (by simp [releasing])]) (by simp) h.defined
    (by simp)

/-- A delivery begins in RELEASING, where neither AWAKE's law nor that of the quiet states bears. -/
theorem State.ContextLaws.beginDelivery (h : s.ContextLaws) (due : s.deliveryDue = true) :
    s.beginDelivery.ContextLaws := by
  simp only [State.deliveryDue, Bool.and_eq_true, beq_iff_eq] at due
  obtain ⟨⟨⟨⟨releasing, -⟩, -⟩, -⟩, -⟩ := due
  refine ⟨?_, ?_, h.pending, h.governed, h.defined, h.timed⟩
  · simp [releasing]
  · simp [releasing]

/-- A part that is AWAKE with nothing held, no profile active and the release delay timer stopped. -/
theorem State.contextLaws_of_cleared {s : State} (awake : s.ctx.station = .awake) (empty : s.hold.list = [])
    (pending : s.ctx.wakePending = false) (inactive : s.ctx.active = .none) (stopped : s.releaseTimer = .stopped) :
    s.ContextLaws :=
  ⟨fun _ => empty, by simp [awake], by simp [pending], by simp [awake], by simp [inactive], by simp [stopped, awake]⟩

theorem State.ContextLaws.takeReset (h : s.ContextLaws) : s.takeReset.ContextLaws := by
  have cleared : s.warmClear.ContextLaws := by
    refine State.contextLaws_of_cleared ?_ ?_ ?_ ?_ ?_
    · simp [State.warmClear, Context.initial]
    · simp [State.warmClear, (HoldStore.remove_parts ..).1]
    · simp [State.warmClear, Context.initial]
    · simp [State.warmClear, Context.initial]
    · simp [State.warmClear]
  unfold State.takeReset
  split
  · exact h
  · unfold State.warmReset
    split
    · exact cleared
    · exact cleared.of_eq rfl rfl rfl rfl
  · exact State.contextLaws_of_cleared rfl rfl rfl rfl rfl

theorem State.ContextLaws.lineDone (h : s.ContextLaws) (x : LineSource) :
    (((s.endLineTx .completed).countTransmitted .line).leaveLine x).ContextLaws := by
  cases x <;> refine h.of_eq ?_ ?_ ?_ ?_ <;> simp [State.leaveLine]

theorem State.ContextLaws.stationDone (h : s.ContextLaws) (x : StationSource) :
    (((s.endStationTx .completed).countTransmitted .station).leaveStation x).ContextLaws := by
  have sent : ((s.endStationTx .completed).countTransmitted .station).ContextLaws :=
    h.of_eq (by simp) (by simp) (by simp) (by simp)
  cases x with
  | control => exact sent.of_eq rfl rfl rfl rfl
  | release => exact sent.removeFirst ..
  | transit => exact sent.setTransit _ fun empty => by simpa using congrArg List.tail empty

theorem State.ContextLaws.elapse (h : s.ContextLaws) : s.elapse.ContextLaws :=
  ⟨h.awake, h.quiet, h.pending, h.governed, h.defined, by simpa [State.elapse] using h.timed⟩

end

/-- Every change of the state that a step is made of keeps the laws of the station context; the end of an attempt is
made in WAKING. -/
theorem keepsContext : State.Kept State.ContextLaws State.WakeLaws where
  pend _ _ _ h := h.of_eq rfl rfl rfl rfl
  elapse _ h := h.elapse
  hard _ _ _ _ _ := State.contextLaws_of_cleared rfl rfl rfl rfl rfl
  low _ h := h.of_eq (by simp) (by simp) (by simp) (by simp)
  lineLoss _ _ h := h.of_eq (by simp) (by simp) (by simp [State.loseLine]) (by simp)
  lineEvent _ up h := h.lineLinkEvent up
  lineRegain _ h := h.of_eq rfl rfl rfl rfl
  stationLoss s a h := by
    have abandoned : (s.abandon .station a).ContextLaws := h.of_eq (by simp) (by simp) (by simp) (by simp)
    obtain ⟨toStation, held⟩ := (s.abandon .station a).loseStation_quiet
    exact abandoned.loseStation.sleepAtLoss toStation held
  stationRegain _ h := h.of_eq rfl rfl rfl rfl
  consume _ _ c h := State.ContextLaws.consume (h.of_eq (by simp) (by simp) (by simp) (by simp)) c
  intakeError _ _ h := h.of_eq (by simp) (by simp) (by simp) (by simp)
  traffic _ p f h := State.ContextLaws.traffic (h.of_eq (by simp) (by simp) (by simp) (by simp)) p f
  pulse _ h := h.of_eq rfl rfl rfl rfl
  attempt s h wake _ attempt := h.endAttempt (by
    by_contra other
    have idle := wake.idle.2 other
    simp [attempt] at idle)
  rest _ h _ _ := h.of_eq rfl rfl rfl rfl
  delay _ h running := ⟨h.awake, h.quiet, h.pending, h.governed, h.defined, by simpa [running] using h.timed⟩
  expiry _ _ h _ := h.removeFirst ..
  lineDone _ x h _ := h.lineDone x
  stationDone _ x h _ := h.stationDone x
  endBinding _ h := h.of_eq rfl rfl rfl rfl
  retransmit _ h := h.of_eq rfl rfl rfl rfl
  reset _ h _ := h.takeReset
  releaseEnd _ h due := h.releaseEnd due
  drainEnd _ h due := h.drainEnd due
  delivery _ h due := h.beginDelivery due
  line _ h _ := h.of_eq rfl rfl rfl rfl
  station _ h _ := h.of_eq rfl rfl rfl rfl
  offer _ h _ := h.of_eq (by simp) (by simp) (by simp) (by simp)

end Sys2Proof.Machine
end

section
/-! The table of the wake controller's phases is kept by every step, and the reset state meets every invariant. -/

namespace Sys2Proof.Machine

/-! ## The wake controller by the station state -/

/-- The table of the wake controller's phases in a station state (R86, R87). -/
structure WakeController.Lawful (w : WakeController) (station : StationState) : Prop where
  idle : w.phase = .idle ↔ station ≠ .waking
  released : w.phase ≠ .attempt → w.line = .released ∧ w.pulseTimer = .stopped
  stopped : w.phase = .idle ↔ w.attemptTimer = .stopped
  pulse : w.pulseTimer ≠ .stopped → w.line = .asserted
  terms : w.terms.isSome = true ↔ station = .waking
  cleared : station ≠ .waking → station ≠ .unresponsive → w.attempt = 0
  counted : station = .waking → 1 ≤ w.attempt
  most : w.attempt ≤ 8
  resting : w.phase = .rest → w.attempt ≤ 7
  retries : ∀ x, w.terms = some x → x.retries ≤ 7

/-- Every defined profile allows at most seven retries (R5). -/
def RetriesFit (profiles : List (Option Profile)) : Prop := ∀ p, some p ∈ profiles → p.retries ≤ 7

/-- The laws of the wake controller, as a predicate of it, of the station state and of the profiles. -/
def State.WakeLawful (s : State) : Prop := s.wake.Lawful s.ctx.station ∧ RetriesFit s.ctx.profiles

theorem State.wakeLaws_iff (s : State) : s.WakeLaws ↔ s.WakeLawful :=
  ⟨fun ⟨h1, h2, h3, h4, h5, h6, h7, h8, h9, h10, fit⟩ => ⟨⟨h1, h2, h3, h4, h5, h6, h7, h8, h9, h10⟩, fit⟩,
    fun ⟨⟨h1, h2, h3, h4, h5, h6, h7, h8, h9, h10⟩, fit⟩ => ⟨h1, h2, h3, h4, h5, h6, h7, h8, h9, h10, fit⟩⟩

/-- After the end of a sequence. -/
theorem WakeController.Lawful.initial {e : StationState} (other : e ≠ .waking) :
    WakeController.initial.Lawful e := by
  constructor <;> simp [WakeController.initial, other]

/-- A change of station state away from WAKING and UNRESPONSIVE, into a state other than WAKING. -/
theorem WakeController.Lawful.move {w : WakeController} {a b : StationState} (h : w.Lawful a) (waking : a ≠ .waking)
    (unresponsive : a ≠ .unresponsive) (other : b ≠ .waking) : w.Lawful b where
  idle := by simp [h.idle.2 waking, other]
  released := h.released
  stopped := h.stopped
  pulse := h.pulse
  terms := by simp [other, mt h.terms.1 waking]
  cleared _ _ := h.cleared waking unresponsive
  counted entered := absurd entered other
  most := h.most
  resting := h.resting
  retries := h.retries

/-- The profile that governs allows at most seven retries. -/
theorem State.activeProfile_retries {s : State} (fit : RetriesFit s.ctx.profiles) : s.activeProfile.retries ≤ 7 := by
  have builtIn : Profile.builtIn.retries ≤ 7 := by decide
  unfold State.activeProfile
  split
  · next i _ =>
    cases record : s.ctx.profiles.getD i.val none with
    | none => exact builtIn
    | some p =>
      refine fit p (List.mem_of_getElem? (i := i.val) ?_)
      rw [List.getD_eq_getElem?_getD] at record
      cases entry : s.ctx.profiles[i.val]? with
      | none => simp [entry] at record
      | some q => simpa [entry] using record
  · exact builtIn
  · exact builtIn

/-- An attempt of a sequence. -/
theorem WakeController.Lawful.attempt {s : State} (fit : RetriesFit s.ctx.profiles) {n : Nat} (least : 1 ≤ n)
    (most : n ≤ 8) : (s.startAttempt n).wake.Lawful .waking := by
  constructor <;> simp [State.startAttempt, least, most, State.activeProfile_retries fit]

/-- The line released and the pulse timer stopped. -/
theorem WakeController.Lawful.release {w : WakeController} {e : StationState} (h : w.Lawful e) :
    WakeController.Lawful { w with line := .released, pulseTimer := .stopped } e :=
  ⟨h.idle, fun _ => ⟨rfl, rfl⟩, h.stopped, by simp, h.terms, h.cleared, h.counted, h.most, h.resting, h.retries⟩

/-- Timers that lost a millisecond run or are stopped as before. -/
theorem WakeController.Lawful.tick {w : WakeController} {e : StationState} (h : w.Lawful e) :
    WakeController.Lawful { w with attemptTimer := w.attemptTimer.tick, pulseTimer := w.pulseTimer.tick } e :=
  ⟨h.idle, by simpa using h.released, by simpa using h.stopped, by simpa using h.pulse, h.terms, h.cleared, h.counted,
    h.most, h.resting, h.retries⟩

/-! ## Each operation -/

section
variable {s t : State}

theorem State.WakeLawful.of_eq (h : s.WakeLawful) (wake : t.wake = s.wake) (station : t.ctx.station = s.ctx.station)
    (profiles : t.ctx.profiles = s.ctx.profiles) : t.WakeLawful := by
  unfold State.WakeLawful
  rw [wake, station, profiles]
  exact h

theorem State.WakeLawful.changeState (h : s.WakeLawful) (waking : s.ctx.station ≠ .waking)
    (unresponsive : s.ctx.station ≠ .unresponsive) {e : StationState} (other : e ≠ .waking) (c : Cause) :
    (s.changeState e c).WakeLawful :=
  ⟨h.1.move waking unresponsive other, h.2⟩

/-- A state entered with the wake controller at its reset values. -/
theorem State.wakeLawful_of_initial (wake : s.wake = .initial) (other : s.ctx.station ≠ .waking)
    (fit : RetriesFit s.ctx.profiles) : s.WakeLawful :=
  ⟨wake ▸ .initial other, fit⟩

theorem State.wakeLawful_enterWaking (fit : RetriesFit s.ctx.profiles) (c : Cause) : (s.enterWaking c).WakeLawful :=
  ⟨WakeController.Lawful.attempt (s := s.changeState .waking c) fit le_rfl (by decide), fit⟩

theorem State.WakeLawful.wakeDecision (h : s.WakeLawful) (c : Cause) : (s.wakeDecision c).WakeLawful := by
  unfold State.wakeDecision
  split
  case h_5 => exact State.wakeLawful_enterWaking h.2 c
  case h_6 =>
    split
    · exact State.wakeLawful_enterWaking h.2 c
    · exact h
  all_goals exact h

theorem State.WakeLawful.dozeMove (h : s.WakeLawful) : s.dozeMove.WakeLawful := by
  unfold State.dozeMove
  split
  case h_1 awake => exact h.changeState (by simp [awake]) (by simp [awake]) (by split <;> simp) _
  case h_2 releasing =>
    exact State.WakeLawful.changeState (s := s.setReleaseTimer .stopped) h (by simp [releasing]) (by simp [releasing])
      (by split <;> simp) _
  case h_5 => exact State.wakeLawful_of_initial rfl (by simp) h.2
  case h_6 => exact State.wakeLawful_of_initial rfl (by simp) h.2
  all_goals exact h

theorem State.WakeLawful.endSleep (h : s.WakeLawful) : s.endSleep.WakeLawful := by
  unfold State.endSleep
  dsimp only
  split
  · exact State.wakeLawful_of_initial rfl (by simp) h.2
  · exact State.wakeLawful_of_initial rfl (by simp) h.2

/-- A profile record as read allows at most seven retries. -/
theorem Profile.read_retries {l : List Byte} {p : Profile} (h : Profile.read l = some p) : p.retries ≤ 7 := by
  simp only [Profile.read, Option.bind_eq_bind, Option.bind_eq_some_iff, Option.some.injEq] at h
  obtain ⟨sets, -, disposition, -, mode, -, timeout, -, retries, read, delay, -, onLink, -, rfl⟩ := h
  obtain ⟨inRange, rfl⟩ := readNat_some.1 read
  simpa using inRange

theorem RetriesFit.set {l : List (Option Profile)} (h : RetriesFit l) (i : Nat) {x : Option Profile}
    (new : ∀ p, x = some p → p.retries ≤ 7) : RetriesFit (l.set i x) := by
  intro p member
  rcases List.mem_or_eq_of_mem_set member with old | set
  · exact h p old
  · exact new p set.symm

theorem OwnerChange.wakeLawful {source : Mac} (change : OwnerChange s source t) (h : s.WakeLawful) :
    t.WakeLawful := by
  cases change
  case defineProfile i p record read =>
    exact ⟨h.1, h.2.set i fun q same => Option.some.inj same ▸ Profile.read_retries read⟩
  case undefineProfile i inactive => exact ⟨h.1, h.2.set i (by simp)⟩
  case undefineActive i awake => exact ⟨h.1, h.2.set i (by simp)⟩
  case wake => exact h.wakeDecision _
  case doze i defined => exact State.WakeLawful.dozeMove h
  case resume away => exact h.endSleep
  all_goals exact h

theorem State.WakeLawful.consume (h : s.WakeLawful) (c : Ctl) : (s.consume c).WakeLawful :=
  State.consume_kept c h (fun _ _ hu change => change.wakeLawful hu)
    (fun _ _ _ hu => hu.of_eq (by simp) (by simp) (by simp)) (fun _ _ hu => hu)
    (fun _ _ _ hu => hu.of_eq (by simp) (by simp) (by simp)) (fun _ _ hu => hu)

theorem State.WakeLawful.traffic (h : s.WakeLawful) (p : Port) (f : Frame) : (s.traffic p f).WakeLawful :=
  State.traffic_kept p f h (fun _ => h.of_eq (by simp) (by simp) (by simp)) (h.of_eq (by simp) (by simp) (by simp))
    (fun _ => h) (fun _ _ => h) (fun _ _ hu => hu.of_eq (by simp) (by simp) (by simp)) (fun _ _ _ hu _ => hu)
    (fun _ _ hu => hu) (fun _ x hu => hu.wakeDecision x)

theorem State.WakeLawful.lineLinkEvent (h : s.WakeLawful) (up : Bool) : (s.lineLinkEvent up).WakeLawful := by
  have raised : (s.raise (.lineLink up)).WakeLawful := h
  unfold State.lineLinkEvent
  dsimp only
  repeat' split
  all_goals first | exact raised | exact raised.wakeDecision _

theorem State.WakeLawful.sleepAtLoss (h : s.WakeLawful) : s.sleepAtLoss.WakeLawful := by
  unfold State.sleepAtLoss
  split
  case h_1 awake =>
    exact State.WakeLawful.changeState (s := s.setCtx { s.ctx with active := s.ctx.fallback }) h (by simp [awake])
      (by simp [awake]) (by simp) _
  case h_2 releasing =>
    exact State.WakeLawful.changeState
      (s := (s.setReleaseTimer .stopped).setCtx { s.ctx with active := s.ctx.fallback }) h (by simp [releasing])
      (by simp [releasing]) (by simp) _
  case h_3 dozing =>
    split
    · refine State.wakeLawful_enterWaking ?_ _
      exact h.2
    · exact h.changeState (by simp [dozing]) (by simp [dozing]) (by simp) _
  all_goals exact h

theorem State.WakeLawful.drainEnd (h : s.WakeLawful) (due : s.drainEndDue = true) : s.drainEnd.WakeLawful := by
  simp only [State.drainEndDue, Bool.and_eq_true, beq_iff_eq] at due
  obtain ⟨dozing, -⟩ := due
  unfold State.drainEnd
  split
  · refine State.wakeLawful_enterWaking ?_ _
    exact h.2
  · exact h.changeState (by simp [dozing]) (by simp [dozing]) (by simp) _

theorem State.WakeLawful.releaseEnd (h : s.WakeLawful) (due : s.releaseEndDue = true) : s.releaseEnd.WakeLawful := by
  simp only [State.releaseEndDue, Bool.and_eq_true, beq_iff_eq] at due
  obtain ⟨releasing, -⟩ := due
  exact State.WakeLawful.changeState (s := s.setReleaseTimer .stopped) h (by simp [releasing]) (by simp [releasing])
    (by simp) _

/-- The retries of the attempt's terms are at most seven. -/
theorem WakeController.Lawful.retries_le {w : WakeController} {e : StationState} (h : w.Lawful e) :
    w.retries ≤ 7 := by
  unfold WakeController.retries
  cases terms : w.terms with
  | none => exact Nat.zero_le _
  | some x => exact h.retries x terms

/-- The end of an attempt: a rest after at most seven attempts, or the failure of the sequence. -/
theorem State.WakeLawful.endAttempt (h : s.WakeLawful) (attempt : s.wake.phase = .attempt) :
    s.endAttempt.WakeLawful := by
  obtain ⟨law, fit⟩ := h
  have waking : s.ctx.station = .waking := by
    by_contra other
    simpa [attempt] using law.idle.2 other
  have few := law.retries_le
  unfold State.endAttempt
  dsimp only
  split
  · next again =>
    refine ⟨⟨?_, ?_, ?_, ?_, law.terms, law.cleared, law.counted, law.most, ?_, law.retries⟩, fit⟩
    · simp [waking]
    · simp
    · simp
    · simp
    · intro
      simp only [State.wake_setWake]
      omega
  · refine ⟨⟨?_, ?_, ?_, ?_, ?_, ?_, ?_, law.most, ?_, ?_⟩, fit⟩
    all_goals simp

theorem State.WakeLawful.startAttempt (h : s.WakeLawful) (rest : s.wake.phase = .rest) :
    (s.startAttempt (s.wake.attempt + 1)).WakeLawful := by
  obtain ⟨law, fit⟩ := h
  have waking : s.ctx.station = .waking := by
    by_contra other
    simpa [rest] using law.idle.2 other
  have few := law.resting rest
  refine ⟨?_, fit⟩
  have same : (s.startAttempt (s.wake.attempt + 1)).ctx.station = .waking := waking
  rw [same]
  exact .attempt fit (by omega) (by omega)

theorem State.WakeLawful.takeReset (h : s.WakeLawful) : s.takeReset.WakeLawful := by
  have cleared : s.warmClear.WakeLawful := by
    refine State.wakeLawful_of_initial ?_ ?_ ?_
    · simp [State.warmClear]
    · simp [State.warmClear, Context.initial]
    · simpa [State.warmClear, Context.initial] using h.2
  unfold State.takeReset
  split
  · exact h
  · unfold State.warmReset
    split
    · exact cleared
    · exact cleared
  · exact State.wakeLawful_of_initial rfl (by simp [State.coldReset, State.blocksReset, Context.initial])
      (by simp [State.coldReset, State.blocksReset, Context.initial, RetriesFit])

end

/-- Every change of the state that a step is made of keeps the laws of the wake controller. -/
theorem keepsWake : State.Kept State.WakeLawful (fun _ => True) where
  pend _ _ _ h := h
  elapse _ h := ⟨h.1.tick, h.2⟩
  hard _ _ _ _ _ := State.wakeLawful_of_initial rfl (by simp [State.blocksReset, Context.initial])
    (by simp [State.blocksReset, Context.initial, RetriesFit])
  low _ h := h.of_eq (by simp) (by simp) (by simp)
  lineLoss _ _ h := h.of_eq (by simp) (by simp) (by simp)
  lineEvent _ up h := h.lineLinkEvent up
  lineRegain _ h := h
  stationLoss _ _ h := State.WakeLawful.sleepAtLoss (h.of_eq (by simp) (by simp) (by simp))
  stationRegain _ h := h
  consume _ _ c h := State.WakeLawful.consume (h.of_eq (by simp) (by simp) (by simp)) c
  intakeError _ _ h := h.of_eq (by simp) (by simp) (by simp)
  traffic _ p f h := State.WakeLawful.traffic (h.of_eq (by simp) (by simp) (by simp)) p f
  pulse _ h := ⟨h.1.release, h.2⟩
  attempt _ h _ _ attempt := h.endAttempt attempt
  rest _ h _ rest := h.startAttempt rest
  delay _ h _ := h
  expiry _ _ h _ := h
  lineDone _ _ h _ := h.of_eq (by simp) (by simp) (by simp)
  stationDone _ _ h _ := h.of_eq (by simp) (by simp) (by simp)
  endBinding _ h := h
  retransmit _ h := h
  reset _ h _ := h.takeReset
  releaseEnd _ h due := h.releaseEnd due
  drainEnd _ h due := h.drainEnd due
  delivery _ h _ := h
  line _ h _ := h
  station _ h _ := h
  offer _ h _ := h.of_eq (by simp) (by simp) (by simp)

/-- Settles O59: every change of the state that a step is made of keeps the laws of the context (`keepsContext`, which
takes from those of the wake controller that an attempt ends in WAKING) and of the wake controller (`keepsWake`). -/
theorem stepsKeepContextAndWake : Obligations.StepsKeepContextAndWake := by
  intro s t context wake he
  have lawful := s.wakeLaws_iff.1 wake
  refine ⟨keepsContext.step context (fun l n => ?_) he, t.wakeLaws_iff.2 ?_⟩
  · exact (State.wakeLaws_iff _).2 lawful
  · exact keepsWake.step lawful (fun _ _ => trivial) he

/-! ## The reset state -/

theorem State.reset_tablesFit : State.reset.TablesFit := by
  simp [State.reset, State.TablesFit, AnswerGen.initial, Classifier.initial, Context.initial, Transit.empty,
    Config.ruleEntries, Config.profiles, Config.templates]

/-- Settles O60: each invariant at the reset values. -/
theorem resetStateMeetsTheInvariants : Obligations.ResetStateMeetsTheInvariants := by
  obtain ⟨accounted, ordered⟩ := HoldStore.Sound.initial
  refine ⟨fun _ => rfl, ?_, ?_, ?_, accounted, ordered, ?_, ?_⟩
  · exact (State.capacities_iff _).2 ⟨fun p => by cases p <;> exact Nat.zero_le _, State.reset_tablesFit⟩
  · exact (State.noticeLaws_iff _).2 (.initial _)
  · exact (State.bindingLaws_iff _).2 (State.bindingLawful_of_none rfl)
  · exact State.contextLaws_of_cleared rfl rfl rfl rfl rfl
  · exact (State.wakeLaws_iff _).2
      (State.wakeLawful_of_initial rfl (by decide) (by simp [State.reset, Context.initial, RetriesFit]))

end Sys2Proof.Machine
end

section
/-! The step on an empty queue, what no command touches, the RESETN pin and the reset values. -/

namespace Sys2Proof.Machine

/-! ## What no command touches -/

/-- The queue of commands, the free count and part time are those of another state. -/
def State.SameClock (s t : State) : Prop := t.pending = s.pending ∧ t.freeCount = s.freeCount ∧ t.time = s.time

section
variable {s : State}

theorem State.SameClock.event {f : State → State} (h : s.SameClock (f s)) :
    ∃ t, s.event f = .next t ∧ s.SameClock t := by
  refine ⟨_, rfl, ?_⟩
  split
  · exact h
  · exact ⟨rfl, rfl, rfl⟩

theorem State.SameClock.settle {t : State} (h : s.SameClock t) : s.SameClock t.settle := by
  simpa [State.SameClock] using h

/-- A step that is taken only where it is due, and settles. -/
theorem State.SameClock.due {b : Bool} {f : State → State} (h : s.SameClock (f s)) :
    ∃ t, (s.event fun s => s.when b fun s => (f s).settle) = .next t ∧ s.SameClock t := by
  refine State.SameClock.event (f := fun s => s.when b fun s => (f s).settle) ?_
  dsimp only [State.when]
  split
  · exact h.settle
  · exact ⟨rfl, rfl, rfl⟩

theorem execLineTransmitComplete_sameClock (s : State) :
    ∃ t, execLineTransmitComplete s = .next t ∧ s.SameClock t := by
  refine State.SameClock.event ?_
  split
  · exact ⟨rfl, rfl, rfl⟩
  · exact State.SameClock.settle (by simp [State.SameClock])

theorem execStationTransmitComplete_sameClock (s : State) :
    ∃ t, execStationTransmitComplete s = .next t ∧ s.SameClock t := by
  refine State.SameClock.event ?_
  split
  · exact ⟨rfl, rfl, rfl⟩
  · exact State.SameClock.settle (by simp [State.SameClock])

theorem execResetnAsserted_sameClock (s : State) :
    ∃ t, execResetnAsserted s = .next t ∧ s.SameClock t := by
  refine State.SameClock.event ?_
  simp [State.SameClock]

/-- Every command but HARDWARE_RESET answers a next state, with the queue, the free count and part time it found. -/
theorem exec_sameClock {i : Instr} (s : State) (hr : ∀ straps l r, i ≠ .hardwareReset straps l r) :
    ∃ t, exec i s = .next t ∧ s.SameClock t := by
  cases row : i.asCommand with
  | some c =>
    obtain ⟨h, k, ps⟩ := c
    rw [exec_asCommand s row]
    exact State.SameClock.event (by simp [State.SameClock])
  | none =>
    cases i
    case hardwareReset straps l r => exact absurd rfl (hr straps l r)
    case resetnAsserted => exact execResetnAsserted_sameClock s
    case lineFrameReceived f =>
      exact State.SameClock.due (f := fun s => s.intake .line f) (by simp [State.SameClock])
    case stationFrameReceived f =>
      exact State.SameClock.due (f := fun s => s.intake .station f) (by simp [State.SameClock])
    case lineTransmitComplete => exact execLineTransmitComplete_sameClock s
    case stationTransmitComplete => exact execStationTransmitComplete_sameClock s
    case lineLinkLoss arriving => exact State.SameClock.due (by simp [State.SameClock])
    case lineLinkRegain => exact State.SameClock.due (by simp [State.SameClock])
    case stationLinkLoss arriving => exact State.SameClock.due (by simp [State.SameClock])
    case stationLinkRegain => exact State.SameClock.due (by simp [State.SameClock])
    case pulseTimerExpiry => exact State.SameClock.due (by simp [State.SameClock])
    case attemptTimerExpiry => exact State.SameClock.due (by simp [State.SameClock])
    case restExpiry => exact State.SameClock.due (by simp [State.SameClock])
    case drainEnd => exact State.SameClock.due (by simp [State.SameClock])
    case releaseDelayExpiry => exact State.SameClock.due (by simp [State.SameClock])
    case beginDelivery => exact State.SameClock.due (by simp [State.SameClock])
    case releaseEnd => exact State.SameClock.due (by simp [State.SameClock])
    case expiry serial => exact State.SameClock.due (by simp [State.SameClock])
    case lineTransmitStart => exact State.SameClock.due (by simp [State.SameClock])
    case stationTransmitStart => exact State.SameClock.due (by simp [State.SameClock])
    case resetTakesEffect => exact State.SameClock.due (by simp [State.SameClock])
    case leaseExpiry => exact State.SameClock.due (by simp [State.SameClock])
    case noticeOffer => exact State.SameClock.due (by simp [State.SameClock])
    case retransmitTimerExpiry => exact State.SameClock.due (by simp [State.SameClock])
    all_goals cases row

end

/-- Settles O3: HARDWARE_RESET by its equation, every other command by `exec_sameClock`. -/
theorem everyCommandAnswersNext : Obligations.EveryCommandAnswersNext := by
  intro i s
  by_cases hardware : ∃ straps l r, i = .hardwareReset straps l r
  · obtain ⟨straps, l, r, rfl⟩ := hardware
    exact ⟨_, rfl, by simp, by simp, .inr ⟨straps, l, r, rfl⟩⟩
  · obtain ⟨t, answered, pending, free, time⟩ := exec_sameClock s fun straps l r h => hardware ⟨straps, l, r, h⟩
    exact ⟨t, answered, pending, free, .inl time⟩

/-! ## One millisecond -/

@[simp] theorem Timer.due_iff (t : Timer) : t.due = true ↔ t = .running 0 := beq_iff_eq

theorem mem_dueWhen {b : Bool} {i e : Instr} : e ∈ dueWhen b i ↔ e = i ∧ b = true := by
  cases b <;> simp [dueWhen]

theorem State.leaseDue_iff (s : State) : s.leaseDue = true ↔ ∃ b, s.responder.binding = some b ∧ b.remaining = 0 := by
  simp [State.leaseDue, Option.any_eq_true]

/-- A HELD frame expires where its class has a lifetime and its age has reached it (R63). -/
theorem Descriptor.expires_iff (d : Descriptor) (k : Configs) (now : Word32) :
    d.expires k now = true ↔ d.state = .held ∧ (k.get d.cls).lifetime ≠ 0 ∧
      (k.get d.cls).lifetime * 1000 ≤ (now - d.arrival).toNat := by
  simp only [Descriptor.expires, Descriptor.isHeld, Descriptor.outlived, Descriptor.age, Bool.and_eq_true,
    beq_iff_eq, bne_iff_ne]
  exact and_congr_right fun _ => and_congr_right fun _ => decide_eq_true_iff

/-- The membership of each of the seven expiries. -/
theorem State.mem_dueEvents (s : State) (e : Instr) :
    e ∈ s.dueEvents ↔
      (e = .pulseTimerExpiry ∧ s.wake.pulseTimer = .running 0) ∨
      (e = .attemptTimerExpiry ∧ s.wake.attemptTimer = .running 0 ∧ s.wake.phase = .attempt) ∨
      (e = .restExpiry ∧ s.wake.attemptTimer = .running 0 ∧ s.wake.phase = .rest) ∨
      (e = .releaseDelayExpiry ∧ s.releaseTimer = .running 0) ∨
      (e = .leaseExpiry ∧ ∃ b, s.responder.binding = some b ∧ b.remaining = 0) ∨
      (e = .retransmitTimerExpiry ∧ s.notices.timer = .running 0) ∨
      (∃ d ∈ s.hold.list, e = .expiry d.serial ∧ d.state = .held ∧ (s.hold.configs.get d.cls).lifetime ≠ 0 ∧
        (s.hold.configs.get d.cls).lifetime * 1000 ≤ (s.time - d.arrival).toNat) := by
  have frames : (e ∈ (s.hold.list.filter fun d => d.expires s.hold.configs s.time).map fun d => Instr.expiry d.serial) ↔
      ∃ d ∈ s.hold.list, e = .expiry d.serial ∧ d.expires s.hold.configs s.time = true := by
    simp only [List.mem_map, List.mem_filter]
    exact ⟨fun ⟨d, ⟨listed, due⟩, same⟩ => ⟨d, listed, same.symm, due⟩,
      fun ⟨d, listed, same, due⟩ => ⟨d, ⟨listed, due⟩, same.symm⟩⟩
  simp only [State.dueEvents, List.mem_append, frames, mem_dueWhen, Timer.due_iff, State.leaseDue_iff,
    Descriptor.expires_iff, Bool.and_eq_true, beq_iff_eq, or_assoc]

/-- The serials of an ordered hold list differ. -/
theorem HoldStore.Ordered.serials_nodup {h : HoldStore} (o : h.Ordered) : (h.list.map Descriptor.serial).Nodup := by
  cases list : h.list with
  | nil => exact List.nodup_nil
  | cons d rest =>
    have ascending := o.ascending d rest list
    rw [list] at ascending
    refine List.Pairwise.of_map (S := (· < ·)) (serialFrom d.serial) (fun a b below same => ?_) ?_
    · exact absurd (same ▸ below) (lt_irrefl _)
    · simpa [List.map_map, Function.comp_def] using ascending

theorem nodup_dueWhen_append {b : Bool} {i : Instr} {l : List Instr} (fresh : i ∉ l) (h : l.Nodup) :
    (dueWhen b i ++ l).Nodup := by
  cases b
  · exact h
  · exact List.nodup_cons.2 ⟨fresh, h⟩

/-- Each due expiry stands once where the hold list has its order. -/
theorem State.dueEvents_nodup {s : State} (o : s.hold.Ordered) : s.dueEvents.Nodup := by
  have frames : ((s.hold.list.filter fun d => d.expires s.hold.configs s.time).map
      fun d => Instr.expiry d.serial).Nodup := by
    have sub : (s.hold.list.filter fun d => d.expires s.hold.configs s.time).Sublist s.hold.list := List.filter_sublist
    have serials := (o.serials_nodup.sublist (sub.map Descriptor.serial)).map
      (f := Instr.expiry) fun a b same => Instr.expiry.inj same
    rwa [List.map_map] at serials
  simp only [State.dueEvents, List.append_assoc]
  refine nodup_dueWhen_append ?_ (nodup_dueWhen_append ?_ (nodup_dueWhen_append ?_ (nodup_dueWhen_append ?_
    (nodup_dueWhen_append ?_ (nodup_dueWhen_append ?_ frames)))))
  all_goals simp [mem_dueWhen]

/-- Settles O2: the tick's own equation, with the reordering a permutation (`reorder_perm`). -/
theorem emptyQueuePassesOneMillisecond : Obligations.EmptyQueuePassesOneMillisecond := by
  refine ⟨fun s empty => ⟨fun low => ?_, fun high =>
    ⟨_, reorder_perm s.elapse.dueEvents _ (Config.freeOrder s.freeCount) rfl, ?_⟩, rfl, fun n => ⟨rfl, rfl⟩, rfl, rfl,
    rfl, fun b => rfl⟩, State.mem_dueEvents, fun s o => State.dueEvents_nodup o⟩
  · rw [step, empty]
    simp [State.tick, low]
  · rw [step, empty]
    simp only [State.tick, high, if_true]
    rfl

/-! ## The RESETN pin -/

theorem exec_resetnAsserted {s : State} (high : s.pins.resetn = true) :
    exec .resetnAsserted s = .next
      (((s.setPins { s.pins with resetn := false }).setLine
        { s.line with
          rx := none, tx := none
          lastSent := sentAfter .line s.line.lastSent s.lineTxFrame .cutBadFcs }).setStation
        { s.station with
          rx := none, tx := none
          lastSent := sentAfter .station s.station.lastSent s.stationTxFrame .cutBadFcs
          releaseCut := if s.station.tx = some .release then s.station.releaseCut + 1 else s.station.releaseCut }) := by
  show execResetnAsserted s = _
  rw [execResetnAsserted, State.event_high _ high]
  by_cases release : s.station.tx = some .release
  all_goals
    simp [State.countReleaseCut, release, State.endStationTx, State.endLineTx, State.setRx,
      State.lineTxFrame, State.stationTxFrame, State.setLine, State.setStation, State.setPins, State.delivering]

/-! ## What an ended transmission leaves -/

theorem sentAfter_completed (p : Port) (log : SentLog) (f : Frame) :
    sentAfter p log (some f) .completed =
      { last := some { ending := .completed, frame := f, bytes := f }, cuts := log.cuts } := rfl

/-- A transmission stopped at a link loss leaves fewer bytes than the frame has (R121, R122). -/
theorem sentAfter_stoppedAtLoss (p : Port) (log : SentLog) {f : Frame} (some_byte : f ≠ []) :
    ∃ n, n < f.length ∧ sentAfter p log (some f) .stoppedAtLoss =
      { last := some { ending := .stoppedAtLoss, frame := f, bytes := f.take n }, cuts := log.cuts + 1 } := by
  obtain ⟨n, short, sent⟩ := bytesSent_eq_take p log.cuts some_byte
  exact ⟨n, short, by rw [← sent]; rfl⟩

/-- A transmission cut at a reset leaves fewer bytes than the frame has, closed so that they fail intake (R83). -/
theorem sentAfter_cutBadFcs (p : Port) (log : SentLog) {f : Frame} (some_byte : f ≠ []) :
    ∃ (n : Nat) (wrong : List Byte), n < f.length ∧ wrong.length = 4 ∧ wrong ≠ fcsBytes (f.take n) ∧
      intakeOk (f.take n ++ wrong) = false ∧ sentAfter p log (some f) .cutBadFcs =
        { last := some { ending := .cutBadFcs, frame := f, bytes := f.take n ++ wrong }, cuts := log.cuts + 1 } := by
  obtain ⟨n, short, sent⟩ := bytesSent_eq_take p log.cuts some_byte
  have wrong := wrongFcs_ne p log.cuts (f.take n)
  have four := wrongFcs_length p log.cuts (f.take n)
  exact ⟨n, _, short, four, wrong, intakeOk_badly_closed four wrong, by rw [← sent]; rfl⟩

/-! ## The frame in transmission -/

theorem State.delivering_of_parts {s : State} {before after : List Descriptor} {d : Descriptor}
    (list : s.hold.list = before ++ d :: after) (head : d.state = .delivering) (rest : ∀ x ∈ before, x.state = .held) :
    s.delivering = some d := by
  rw [State.delivering, list, List.find?_append, List.find?_eq_none.2]
  · simp [Descriptor.isDelivering, head]
  · intro x found
    simp [Descriptor.isDelivering, rest x found]

theorem State.delivering_none {s : State} (held : ∀ x ∈ s.hold.list, x.state = .held) : s.delivering = none :=
  List.find?_eq_none.2 fun x found => by simp [Descriptor.isDelivering, held x found]

theorem State.wakePin_iff (s : State) : s.wakePin = true ↔ s.pins.resetn = true ∧ s.wake.line = .asserted := by
  simp [State.wakePin]

/-- Settles O4: RESETN's own equation (`exec_resetnAsserted`), what an ended transmission leaves, and, while RESETN is
low, `exec_event`. -/
theorem resetnLowStopsThePart : Obligations.ResetnLowStopsThePart := by
  refine ⟨fun s high => exec_resetnAsserted high, State.wakePin_iff, fun c s low other => ?_,
    fun p log f => ?_, fun s => ?_⟩
  · obtain ⟨f, event⟩ := exec_event c other
    rw [event, State.event_low f low]
  · exact ⟨sentAfter_idle p log, sentAfter_completed p log f, sentAfter_stoppedAtLoss p log, sentAfter_cutBadFcs p log⟩
  · refine ⟨fun source => ?_, fun source => ?_, fun source => ?_, fun source => ?_, fun source => ?_,
      fun source => ?_, fun source => ?_, fun source => ?_, fun _ _ _ => State.delivering_of_parts,
      State.delivering_none⟩
    all_goals simp [State.lineTxFrame, State.stationTxFrame, source]

/-! ## The reset values -/

/-- Settles O5: by the definition of HARDWARE_RESET. -/
theorem hardwareResetGivesTheResetValues : Obligations.HardwareResetGivesTheResetValues := fun _ _ _ _ => rfl

/-- Settles O6: by the initial value of each block. -/
theorem resetStateIsUnconfigured : Obligations.ResetStateIsUnconfigured := by
  refine ⟨rfl, rfl, rfl, rfl, fun e listed => ?_, rfl, fun e listed => List.eq_of_mem_replicate listed, rfl, rfl, rfl,
    rfl, rfl, fun c other => ?_, fun c => ?_, rfl, rfl, rfl, fun t listed => List.eq_of_mem_replicate listed, rfl, rfl,
    rfl, rfl, rfl, rfl, rfl, rfl, ⟨_, rfl⟩, ⟨_, rfl⟩, fun up => ⟨rfl, rfl⟩, rfl, rfl, rfl, rfl, rfl⟩
  · obtain rfl := List.eq_of_mem_replicate listed
    exact ⟨rfl, rfl⟩
  · cases c
    case b => exact absurd rfl other
    all_goals rfl
  · cases c <;> rfl

end Sys2Proof.Machine
end

section
/-! The management session: IDENTIFY, BIND, STATUS, and what the session's checks answer. -/

namespace Sys2Proof.Machine

/-! ## IDENTIFY (R149) -/

@[simp] theorem State.heard_identityBody (s : State) (p : Port) : (s.heard p).identityBody = s.identityBody := by
  cases p <;> rfl

theorem judge_identify (s : State) (h : CmdHeader) :
    s.judge (Ctl.ofCommand h .identify []) = s.answer (Ctl.ofCommand h .identify []) .ok s.identityBody := by
  rw [State.judge_command]
  cases port : h.port <;> rfl

/-- Settles O7: IDENTIFY needs no session and its owner changes nothing. -/
theorem identifyAnswersAndChangesNothing : Obligations.IdentifyAnswersAndChangesNothing := by
  refine ⟨fun s h hs hj => ?_, fun s unbound => ?_, fun s b bound => ?_⟩
  · exact exec_refusal rfl hs hj (by decide) (by rw [judge_identify, State.heard_identityBody])
  · rw [State.identityBody, unbound]
    rfl
  · rw [State.identityBody, bound]
    rfl

/-! ## BIND (R133) -/

theorem natAt_be16_nil (x : Word16) : natAt (be16 x) 0 2 = x.toNat := beNat_be16 x

theorem leaseGranted_none_iff {n : Nat} : leaseGranted n = none ↔ (1 ≤ n ∧ n ≤ 4) ∨ 600 < n := by
  simp only [leaseGranted]
  split
  · simp; omega
  · split
    · simp; omega
    · simp; omega

theorem leaseGranted_some_iff {n granted : Nat} :
    leaseGranted n = some granted ↔ (n = 0 ∧ granted = 60) ∨ (5 ≤ n ∧ n ≤ 600 ∧ granted = n) := by
  simp only [leaseGranted]
  split
  · simp; omega
  · split
    · simp; omega
    · simp; omega

theorem judge_bind (s : State) (h : CmdHeader) (lease : Word16) (line : h.port = .line) :
    s.judge (Ctl.ofCommand h .bind (be16 lease)) = s.judgeBind (Ctl.ofCommand h .bind (be16 lease)) := by
  rw [State.judge_command, line]
  rfl

section
variable {s : State} {c : Ctl}

/-- A BIND that no other manager's binding stands against is refused for its lease alone. -/
theorem State.judgeBind_refused (own : ∀ b, s.responder.binding = some b → b.manager = c.source)
    (range : leaseGranted (natAt c.params 0 2) = none) : s.judgeBind c = s.answer c .badValue [] := by
  unfold State.judgeBind
  cases bound : s.responder.binding with
  | none => simp only [range]
  | some b => simp only [own b bound, range, if_true]

/-- A BIND that no other manager's binding stands against forms or remakes the binding. -/
theorem State.judgeBind_taken {lease : Nat} (own : ∀ b, s.responder.binding = some b → b.manager = c.source)
    (range : leaseGranted (natAt c.params 0 2) = some lease) :
    s.judgeBind c = (s.place c.port (c.response s.unitAddress .ok (nat16 lease))).setBinding
      (some { manager := c.source, lease := lease, remaining := lease * 1000, lastSeq := c.seq,
              cached := c.response s.unitAddress .ok (nat16 lease) }) := by
  unfold State.judgeBind
  cases bound : s.responder.binding with
  | none => simp only [range]
  | some b => simp only [own b bound, range, if_true]

theorem State.judgeBind_elsewhere {b : Binding} (bound : s.responder.binding = some b)
    (other : b.manager ≠ c.source) :
    s.judgeBind c = s.answer c .boundElsewhere (be32 (BitVec.ofNat 32 b.remaining)) := by
  simp only [State.judgeBind, bound, other, if_false]

end

/-- A response placed on the line port of a settled state while the binding is set: a waiting notice may follow. -/
theorem State.settle_placed_setBinding {s : State} (r : CtlFrame) (x : Option Binding) (hs : s.nothingDue = true)
    (hu : s.line.linkUp = true) (hp : s.responder.resetPending = none) :
    (((s.heard .line).place .line r).setBinding x).settle = ((s.withReply .line r).setBinding x).settleOffer := by
  obtain ⟨_, releaseEnd, drainEnd, delivery, lineChoice, stationChoice, _⟩ := (State.nothingDue_iff s).1 hs
  have settled := State.settle_lineReply (s := s) (u := ((s.heard .line).place .line r).setBinding x) r hu rfl
    (by simp [State.resetDue, State.setBinding, State.place, hp]) releaseEnd drainEnd delivery stationChoice
    (State.lineIdle lineChoice hu)
  rw [settled]
  rfl

/-- Settles O8: `judgeBind` on the counted reception, then the offer that the new binding may make due. -/
theorem bindFormsOrRemakesTheBinding : Obligations.BindFormsOrRemakesTheBinding := by
  intro s h lease hs hj line
  have row : (Instr.bind h lease).asCommand = some (h, .bind, be16 lease) := rfl
  have admitted : (∀ b, s.responder.binding = some b → b.manager = h.source) →
      ∀ b, (s.heard h.port).responder.binding = some b → b.manager = h.source := by simp
  have params : (Ctl.ofCommand h .bind (be16 lease)).params = be16 lease := rfl
  refine ⟨fun own granted range => ?_, fun own range => ?_, fun b bound other => ?_⟩
  · have inRange : leaseGranted (natAt (be16 lease) 0 2) = some granted := by
      rw [natAt_be16_nil, leaseGranted_some_iff]
      exact range.imp_left fun ⟨zero, sixty⟩ => ⟨by rw [zero]; rfl, sixty⟩
    have up : s.line.linkUp = true := by have := hj.up; rwa [line] at this
    rw [exec_judged row hj (by simp), judge_bind _ _ _ line, State.judgeBind_taken (admitted own) inRange,
      ← State.settle_placed_setBinding _ _ (hs hj.high) up hj.noReset, ← State.heard_reply s .line, ← line]
    rfl
  · rw [← line]
    refine exec_refusal row hs hj (by simp) ?_
    rw [judge_bind _ _ _ line, State.judgeBind_refused (admitted own) (leaseGranted_none_iff.2 ?_)]
    rwa [params, natAt_be16_nil]
  · rw [← line]
    refine exec_refusal row hs hj (by simp) ?_
    rw [judge_bind _ _ _ line, State.judgeBind_elsewhere (by simpa using bound) other]

/-! ## STATUS (R151) -/

@[simp] theorem State.heard_statusBody (s : State) (p : Port) : (s.heard p).statusBody = s.statusBody := by
  cases p <;> rfl

theorem fieldByte_eq {w : Nat} (x : BitVec w) (i : Nat) : fieldByte x i = (x >>> (8 * i)).setWidth 8 := by
  ext k
  simp [fieldByte]

theorem be16_eq (x : Word16) : be16 x = [(x >>> 8).setWidth 8, x.setWidth 8] := by
  simp [be16, fieldByte_eq]

theorem be32_eq (x : Word32) : be32 x = [24, 16, 8, 0].map fun k => (x >>> k).setWidth 8 := by
  simp [be32, fieldByte_eq]

theorem macBytes_eq (x : Mac) : macBytes x = [40, 32, 24, 16, 8, 0].map fun k => (x >>> k).setWidth 8 := by
  simp [macBytes, fieldByte_eq]

theorem ActiveProfile.code_record (i : Fin 4) : (ActiveProfile.record i).code.toNat = i.val :=
  byteOf_toNat (by omega)

theorem State.leaseRemaining_eq (s : State) : s.leaseRemaining = s.responder.binding.elim 0 Binding.remaining := by
  cases bound : s.responder.binding <;> simp [State.leaseRemaining, bound]

theorem State.statusBody_length (s : State) : s.statusBody.length = 60 := by
  simp [State.statusBody, HoldClass.all, Account.gauges]

/-- The station's fields of the status body. -/
theorem State.statusBody_station (s : State) :
    s.statusBody.take 3 = [s.ctx.station.code, s.ctx.active.code, boolByte s.ctx.address.isSome] ∧
    (s.statusBody.drop 3).take 6 = macBytes (s.ctx.address.getD 0) ∧
    (s.statusBody.drop 9).take 3 = [boolByte s.ctx.wakePending, byteOf s.wake.attempt, byteOf s.hold.list.length] :=
  ⟨rfl, rfl, rfl⟩

/-- The hold store's fields of the status body. -/
theorem State.statusBody_hold (s : State) :
    (s.statusBody.drop 12).take 2 = nat16 s.hold.freeBlocks ∧
    (s.statusBody.drop 14).take 2 = [byteOf (128 - s.hold.list.length), 0] ∧
    (s.statusBody.drop 16).take 15 =
      [HoldClass.c0, .c1, .c2, .c3, .b].flatMap
        (fun c => nat16 (s.hold.accounts.get c).used ++ [byteOf (s.hold.accounts.get c).held]) ∧
    (s.statusBody.drop 31).take 1 = [0] := by
  simp [State.statusBody, macBytes, nat16, be16, HoldClass.all, Account.gauges, State.heldCount, Config.descriptors]

/-- The fields of the session, of part time and of the notices. -/
theorem State.statusBody_session (s : State) :
    (s.statusBody.drop 32).take 4 = be32 (BitVec.ofNat 32 (s.responder.binding.elim 0 Binding.remaining)) ∧
    (s.statusBody.drop 36).take 4 = be32 s.time ∧
    (s.statusBody.drop 40).take 2 = [byteOf s.notices.queue.length, 0] ∧
    (s.statusBody.drop 42).take 2 = be16 s.notices.lost := by
  rw [← State.leaseRemaining_eq]
  simp [State.statusBody, macBytes, nat16, be16, be32, HoldClass.all, Account.gauges]

/-- The responder's counters close the status body. -/
theorem State.statusBody_counters (s : State) :
    s.statusBody.drop 44 = be32 s.responder.lineMalformed ++ be32 s.responder.lineOverrun ++
      be32 s.responder.stationMalformed ++ be32 s.responder.stationOverrun := by
  simp [State.statusBody, macBytes, nat16, be16, be32, HoldClass.all, Account.gauges]

/-- Settles O10: STATUS answers its body; the body is read field by field. -/
theorem statusReportsThePart : Obligations.StatusReportsThePart := by
  refine ⟨fun s h b hs hx => ?_, fun s => ?_, rfl, ActiveProfile.code_record, rfl, rfl, rfl, rfl,
    fun n small => byteOf_toNat small, fun n => rfl, be16_eq, be32_eq, macBytes_eq⟩
  · refine exec_executed rfl hs hx rfl (by decide) rfl ?_
    rw [← State.heard_statusBody s .line]
    rfl
  · obtain ⟨state, address, wake⟩ := s.statusBody_station
    obtain ⟨blocks, descriptors, accounts, zero⟩ := s.statusBody_hold
    obtain ⟨lease, time, queue, lost⟩ := s.statusBody_session
    exact ⟨s.statusBody_length, state, address, wake, blocks, descriptors, accounts, zero, lease, time, queue, lost,
      s.statusBody_counters⟩

/-! ## What every accepted command leaves (R137, R138) -/

section
variable {i : Instr} {s : State} {h : CmdHeader} {k : Cmd} {ps : List Byte} {b : Binding}

/-- The response of a RESET that is accepted is a reset response. -/
theorem State.reply_isResetResponse (s : State) (h : CmdHeader) (body : List Byte) :
    (s.reply h .reset .ok body).isResetResponse = true := rfl

/-- Nothing a bound-only command does makes a reset due in its own event: its response has not left the queue. -/
theorem State.execute_resetDue (s : State) (noReset : s.responder.resetPending = none) (hp : h.port = .line)
    (hk : k ≠ .unbind) : (s.execute k (Ctl.ofCommand h k ps) b).resetDue = false := by
  rw [State.execute_eq _ _ _ _ _ hk, hp]
  obtain unchanged | ⟨rfl, ok⟩ := Cmd.own_resetPending k (Ctl.ofCommand h k ps) s
  · simp [State.resetDue, State.setBinding, State.place, unchanged, noReset]
  · simp [State.resetDue, State.setBinding, State.place, ok, State.reply_isResetResponse]

end

/-- Settles O11: the owner keeps the queue and the session (`Cmd.own_session`), and settling only appends
(`State.settle_session`). -/
theorem acceptedCommandAdvancesTheSession : Obligations.AcceptedCommandAdvancesTheSession := by
  intro i h k ps s b row bound notUnbind length hs hx
  have control : (k.own (Ctl.ofCommand h k ps) (s.heard .line)).state.line.control = s.line.control :=
    (Cmd.own_session k (Ctl.ofCommand h k ps) (s.heard .line)).1
  obtain ⟨responder, later, queue⟩ := State.settle_session
    (State.execute_resetDue (h := h) (k := k) (ps := ps) (b := b) (s.heard .line) (by simp [hx.noReset]) hx.port
      notUnbind)
  refine ⟨_, (k.own (Ctl.ofCommand h k ps) (s.heard .line)).status, (k.own (Ctl.ofCommand h k ps) (s.heard .line)).body,
    later, exec_executes row hx bound length, ?_, ?_⟩
  · rw [responder, State.execute_eq _ _ _ _ _ notUnbind, State.heard_reply]
    rfl
  · rw [queue, State.execute_eq _ _ _ _ _ notUnbind, State.heard_reply, hx.port]
    simp [State.setBinding, State.place, control]

/-- A response placed on the line port of a settled state while the present binding is remade. -/
theorem State.settle_placed_rebound {s : State} {b : Binding} (r : CtlFrame) (x : Binding) (hs : s.nothingDue = true)
    (hu : s.line.linkUp = true) (hp : s.responder.resetPending = none) (room : s.line.control.length < 4)
    (bound : s.responder.binding = some b) :
    (((s.heard .line).place .line r).setBinding (some x)).settle = (s.withReply .line r).setBinding (some x) := by
  rw [State.settle_lineSession (u := ((s.heard .line).place .line r).setBinding (some x)) r hs hu room rfl hp rfl rfl
    rfl rfl rfl (.inr ⟨rfl, fun _ => by rw [bound]; rfl⟩)]
  rfl

/-- Settles O12: the refusals of check 5 stand above; the replay and the sequence's refusal are `judgeBound`'s last two
branches. -/
theorem sequenceAndBindingAreJudged : Obligations.SequenceAndBindingAreJudged := by
  intro i h k ps s row bound length hs hj line
  have short : ps.length ≤ 1024 := (Cmd.lengthOk_le length).trans (by decide)
  refine ⟨fun unbound => exec_notBound row hs hj bound length line unbound, fun b present => ⟨fun other =>
    exec_boundElsewhere row hs hj bound length line present other, fun own same => ?_, fun own notSame notNext => ?_⟩⟩
  · have room : s.line.control.length < 4 := by have := hj.room; rwa [line] at this
    have up : s.line.linkUp = true := by have := hj.up; rwa [line] at this
    have judged : (s.heard .line).judgeBound k (Ctl.ofCommand h k ps) =
        ((s.heard .line).place .line { b.cached with kind := 4 }).setBinding
          (some { b with remaining := b.lease * 1000 }) := by
      have source : (Ctl.ofCommand h k ps).source = h.source := rfl
      have seq : (Ctl.ofCommand h k ps).seq = h.seq := rfl
      have port : (Ctl.ofCommand h k ps).port = .line := line
      have unlike : b.lastSeq ≠ b.lastSeq + 1 := by simp
      simp only [State.judgeBound, State.heard_keeps, present, source, own, seq, same, unlike, State.replay, port,
        ne_eq, not_true_eq_false, if_false, if_true]
    rw [exec_judged row hj short, judge_bound _ bound length line, line, judged,
      State.settle_placed_rebound _ _ (hs hj.high) up hj.noReset room present]
  · rw [← line]
    refine exec_refusal row hs hj short ?_
    rw [judge_bound _ bound length line]
    have source : (Ctl.ofCommand h k ps).source = h.source := rfl
    have seq : (Ctl.ofCommand h k ps).seq = h.seq := rfl
    simp only [State.judgeBound, State.heard_keeps, present, source, own, seq, notSame, notNext, ne_eq,
      not_true_eq_false, if_false]

end Sys2Proof.Machine
end

section
/-! The arrival of a control frame, from the wire to the first checks. -/

namespace Sys2Proof.Machine

/-! ## A command's row and its frame (R126, R114) -/

/-- A control frame that arrives is counted and handed to the control responder. -/
theorem State.receive_control {s : State} {p : Port} {f : Frame} (up : s.linkUp p = true) (sound : intakeOk f = true)
    (control : s.isControl f = true) : s.receive p f = ((s.heard p).respond (Ctl.ofFrame p f)).settle := by
  have same : (s.setRx p none).isControl f = s.isControl f := by cases p <;> rfl
  have port : (Ctl.ofFrame p f).port = p := rfl
  simp only [State.receive, State.intake, up, sound, same, control, State.consume, port, State.heard_eq,
    Bool.not_true, Bool.false_eq_true, if_false, if_true]

/-- A command of the table whose parameters fit a frame is counted and handed to the control responder. -/
theorem State.command_heard {s : State} {h : CmdHeader} {k : Cmd} {ps : List Byte} (up : s.linkUp h.port = true)
    (fits : ctlFrameLength ps.length ≤ Config.maxFrame) :
    s.command h k ps = ((s.heard h.port).respond (Ctl.ofCommand h k ps)).settle := by
  have port : (Ctl.ofCommand h k ps).port = h.port := rfl
  simp only [State.command, up, fits, State.consume, port, State.heard_eq, if_true]

/-- A command's frame sent to the part is a control frame. -/
theorem State.isControl_commandFrame {s : State} {dst : Mac} (h : CmdHeader) (k : Cmd) {ps : List Byte}
    (short : ps.length < 65536) (ours : dst = s.unitAddress ∨ dst = Config.groupAddress) :
    s.isControl (commandFrame dst h k ps) = true := by
  obtain ⟨target, -, type, -⟩ := commandFrame_fields dst h k ps short
  simpa [State.isControl, target, type] using ours

/-- The arrival of a command is the reception of the frame that carries it. -/
theorem State.command_eq_receive {s : State} {dst : Mac} {h : CmdHeader} {k : Cmd} {ps : List Byte}
    (fits : 24 + ps.length + 4 ≤ Config.maxFrame) (ours : dst = s.unitAddress ∨ dst = Config.groupAddress) :
    s.command h k ps = s.receive h.port (commandFrame dst h k ps) := by
  have bound : 24 + ps.length + 4 ≤ 1522 := fits
  have short : ps.length < 65536 := by omega
  have length : ctlFrameLength ps.length ≤ Config.maxFrame := by
    simp only [ctlFrameLength, Config.minFrame, Config.maxFrame]; omega
  cases up : s.linkUp h.port with
  | false => simp [State.command, State.receive, up]
  | true =>
    rw [State.command_heard up length, State.receive_control up (commandFrame_intake dst h k ps bound)
      (State.isControl_commandFrame h k short ours), Ctl.ofFrame_commandFrame dst h k ps short]

/-- The bytes of a command's frame. -/
theorem commandFrame_bytes (dst : Mac) (h : CmdHeader) (k : Cmd) (ps : List Byte) :
    commandFrame dst h k ps =
      closed (padTo 60 (macBytes dst ++ macBytes h.source ++ [0xB5, 0x9E, 1, 1, k.code, 0] ++ be16 h.seq ++
        be16 h.tag ++ nat16 ps.length ++ ps)) := by
  have type : be16 Config.controlType = [0xB5, 0x9E] := rfl
  simp [commandFrame, type]

/-! ## Bytes that spell a field -/

theorem be16_ofNat_beNat {l : List Byte} (two : l.length = 2) : be16 (BitVec.ofNat 16 (beNat l)) = l := by
  obtain ⟨a, b, rfl⟩ := List.length_eq_two.1 two
  have := a.isLt; have := b.isLt
  simp only [be16, beNat, List.foldl, List.cons.injEq, and_true]
  constructor
  all_goals
    apply BitVec.eq_of_toNat_eq
    simp [fieldByte, BitVec.extractLsb'_toNat, Nat.shiftRight_eq_div_pow]
    omega

theorem macBytes_ofNat_beNat {l : List Byte} (six : l.length = 6) : macBytes (BitVec.ofNat 48 (beNat l)) = l := by
  match l, six with
  | [a, b, c, d, e, f], _ =>
    have := a.isLt; have := b.isLt; have := c.isLt; have := d.isLt; have := e.isLt; have := f.isLt
    simp only [macBytes, beNat, List.foldl, List.cons.injEq, and_true]
    refine ⟨?_, ?_, ?_, ?_, ?_, ?_⟩
    all_goals
      apply BitVec.eq_of_toNat_eq
      simp [fieldByte, BitVec.extractLsb'_toNat, Nat.shiftRight_eq_div_pow]
      omega

theorem word16At_eq_iff {f : Frame} {k : Nat} {x : Word16} (long : k + 2 ≤ f.length) :
    word16At f k = x ↔ (f.drop k).take 2 = be16 x := by
  have two : ((f.drop k).take 2).length = 2 := by simp; omega
  rw [word16At, natAt]
  constructor
  · rintro rfl
    exact (be16_ofNat_beNat two).symm
  · intro bytes
    rw [bytes, beNat_be16, BitVec.ofNat_toNat, BitVec.setWidth_eq]

theorem macAt_eq_iff {f : Frame} {k : Nat} {x : Mac} (long : k + 6 ≤ f.length) :
    macAt f k = x ↔ (f.drop k).take 6 = macBytes x := by
  have six : ((f.drop k).take 6).length = 6 := by simp; omega
  rw [macAt, natAt]
  constructor
  · rintro rfl
    exact (macBytes_ofNat_beNat six).symm
  · intro bytes
    rw [bytes, beNat_macBytes, BitVec.ofNat_toNat, BitVec.setWidth_eq]

/-- A control frame by its bytes (R114). -/
theorem State.isControl_iff (s : State) {f : Frame} (long : 14 ≤ f.length) :
    s.isControl f = true ↔
      (f.drop 12).take 2 = [0xB5, 0x9E] ∧
        (f.take 6 = macBytes s.unitAddress ∨ f.take 6 = macBytes Config.groupAddress) := by
  have type : be16 Config.controlType = [0xB5, 0x9E] := rfl
  simp only [State.isControl, Bool.and_eq_true, Bool.or_eq_true, beq_iff_eq, ← type,
    word16At_eq_iff (show 12 + 2 ≤ f.length by omega), macAt_eq_iff (show 0 + 6 ≤ f.length by omega), List.drop_zero]

/-- The unit address ends in the straps (R113). -/
theorem State.macBytes_unitAddress (s : State) :
    macBytes s.unitAddress = [0x0A, 0x3C, 0x71, 0xE5, 0x20, s.unitStraps.setWidth 8] := by
  simp only [State.unitAddress]
  generalize s.unitStraps = straps
  revert straps
  decide +kernel

/-- Settles O15: both sides hand the control responder the same fields (`Ctl.ofFrame_commandFrame`). -/
theorem rowIsTheFrameOnTheWire : Obligations.RowIsTheFrameOnTheWire := by
  refine ⟨fun i h k ps dst s row formed ours => ?_, commandFrame_bytes, State.macBytes_unitAddress, by decide,
    fun s f long => s.isControl_iff long⟩
  have same : s.command h k ps = s.receive h.port (commandFrame dst h k ps) :=
    State.command_eq_receive (wellFormed_fits row formed) ours
  rw [exec_asCommand s row]
  cases port : h.port
  all_goals
    rw [port] at same
    cases high : s.pins.resetn
    · rw [State.event_low _ high]
      exact (State.event_low _ high).symm
    · rw [State.event_high _ high, same]
      exact (State.event_high _ high).symm

/-! ## The tests of R127 -/

/-- A control frame counted and discarded leaves a settled part settled: neither counter bears on what is due. -/
theorem State.settle_heard_setResponder {s : State} (p : Port) {r : Responder} (hs : s.nothingDue = true)
    (pending : r.resetPending = s.responder.resetPending) (binding : r.binding = s.responder.binding) :
    ((s.heard p).setResponder r).settle = (s.heard p).setResponder r := by
  refine State.settle_of_nothingDue ?_
  rw [← hs]
  cases p
  all_goals
    exact State.nothingDue_congr rfl rfl rfl rfl pending (by rw [← binding]; rfl) rfl rfl rfl rfl rfl rfl rfl rfl rfl

theorem State.settle_countOverrun {s : State} (p : Port) (hs : s.nothingDue = true) :
    ((s.heard p).countOverrun p).settle = (s.heard p).countOverrun p := by
  cases p <;> exact State.settle_heard_setResponder _ hs rfl rfl

theorem State.settle_countMalformed {s : State} (p : Port) (hs : s.nothingDue = true) :
    ((s.heard p).countMalformed p).settle = (s.heard p).countMalformed p := by
  cases p <;> exact State.settle_heard_setResponder _ hs rfl rfl

/-- Settles O13: the first three branches of `State.respond`, none of which makes a step due. -/
theorem discardsBeforeJudging : Obligations.DiscardsBeforeJudging := by
  refine ⟨fun i h k ps s row formed hs hr => ?_, rfl, rfl, fun s => ⟨rfl, rfl, rfl, rfl, rfl, rfl⟩⟩
  have fits : ctlFrameLength ps.length ≤ Config.maxFrame := by
    have := wellFormed_fits row formed
    simp only [ctlFrameLength, Config.minFrame, Config.maxFrame] at this ⊢; omega
  have port : (Ctl.ofCommand h k ps).port = h.port := rfl
  have source : (Ctl.ofCommand h k ps).source = h.source := rfl
  rw [exec_asCommand s row, State.event_high _ hr.high, State.command_heard hr.up fits]
  refine ⟨fun pending => ?_, fun none group => ?_, fun none single full => ?_⟩
  · rw [← State.settle_countOverrun _ (hs hr.high)]
    simp [State.respond, pending, port]
  · rw [← State.settle_countMalformed _ (hs hr.high)]
    simp [State.respond, none, group, port, source]
  · rw [← State.settle_countOverrun _ (hs hr.high)]
    simp [State.respond, none, single, full, port, source]

/-! ## The first checks of R129 -/

theorem Cmd.code_injective {k l : Cmd} (h : k.code = l.code) : k = l := by
  have codes := congrArg Cmd.ofCode h
  simpa using codes

theorem Cmd.ofCode_eq_some_iff {code : Byte} {k : Cmd} : Cmd.ofCode code = some k ↔ k.code = code := by
  constructor
  · intro found
    simpa using List.find?_some found
  · rintro rfl
    exact Cmd.ofCode_code k

theorem Ctl.fits_iff (p : Port) (f : Frame) :
    (Ctl.ofFrame p f).fits = true ↔ natAt f 22 2 ≤ 1024 ∧ 24 + natAt f 22 2 ≤ f.length - 4 := by
  rw [Ctl.fits, Bool.and_eq_true]
  exact and_congr decide_eq_true_iff decide_eq_true_iff

/-- The event of a frame's arrival at a port. -/
def arrival (p : Port) (f : Frame) (s : State) : Host.Outcome State Fault Refusal := s.event fun s => s.receive p f

/-- A frame that the judging answers without its owner: the response and nothing else. -/
theorem arrival_refused {s : State} {p : Port} {f : Frame} {x : Status} (sound : intakeOk f = true)
    (control : s.isControl f = true) (hs : s.Settled)
    (hj : s.Judges { port := p, source := macAt f 6, seq := word16At f 18, tag := word16At f 20 })
    (refused : ∀ u : State, u.judge (Ctl.ofFrame p f) = u.answer (Ctl.ofFrame p f) x []) :
    arrival p f s = .next (s.withReply p ((Ctl.ofFrame p f).response s.unitAddress x [])) := by
  have port : (Ctl.ofFrame p f).port = p := rfl
  have judged : (s.heard p).respond (Ctl.ofFrame p f) = (s.heard p).judge (Ctl.ofFrame p f) := by
    have source : (Ctl.ofFrame p f).source = macAt f 6 := rfl
    have individual : groupBit (macAt f 6) = false := hj.individual
    have room : (s.controlQueue p).length < controlCap p := hj.room
    simp [State.respond, source, port, hj.noReset, individual, not_le.2 room]
  rw [arrival, State.event_high _ hj.high, State.receive_control hj.up sound control, judged, refused, State.answer,
    port, State.settle_placed p _ (hs hj.high) hj.up hj.noReset hj.room, State.heard_unit]

section
variable (u : State) (c : Ctl)

/-- Check 1: the version. -/
theorem State.judge_badVersion (other : c.version ≠ 1) : u.judge c = u.answer c .badVersion [] := by
  exact if_pos other

/-- Check 2: the parameters lie within the frame. -/
theorem State.judge_unfit (version : c.version = 1) (unfit : c.fits = false) :
    u.judge c = u.answer c .badLength [] := by
  simp only [State.judge, version, unfit, ne_eq, not_true_eq_false, if_false]
  cases Cmd.ofCode c.code <;> simp

/-- Check 3: the code. -/
theorem State.judge_noCommand (version : c.version = 1) (fits : c.fits = true) (code : Cmd.ofCode c.code = none) :
    u.judge c = u.answer c .badCode [] := by
  simp [State.judge, version, fits, code]

variable {k : Cmd}

/-- Check 2 again: the length that the code permits. -/
theorem State.judge_badLength (version : c.version = 1) (code : Cmd.ofCode c.code = some k)
    (length : k.lengthOk c.plen = false) : u.judge c = u.answer c .badLength [] := by
  simp [State.judge, version, code, length]

/-- A frame that passes the checks of version and length is judged by its kind, its port and its session. -/
theorem State.judge_command_of_fits (version : c.version = 1) (fits : c.fits = true)
    (code : Cmd.ofCode c.code = some k) (length : k.lengthOk c.plen = true) : u.judge c = u.judgeCommand k c := by
  simp [State.judge, version, fits, code, length]

/-- Check 3: the kind. -/
theorem State.judgeCommand_badKind (other : c.kind ≠ 1) : u.judgeCommand k c = u.answer c .badCode [] := by
  exact if_pos other

/-- Check 4: the port. -/
theorem State.judgeCommand_notPermitted (kind : c.kind = 1) (barred : k.permitted c.port = false) :
    u.judgeCommand k c = u.answer c .notPermitted [] := by
  simp [State.judgeCommand, kind, barred]

end

/-- The first part of O14 at one port: each check's refusal is the judging's, on the counted reception. -/
theorem checks_of_arrival {s : State} {p : Port} {f : Frame} (sound : intakeOk f = true)
    (control : s.isControl f = true) (hs : s.Settled)
    (hj : s.Judges { port := p, source := macAt f 6, seq := word16At f 18, tag := word16At f 20 }) :
    let c := Ctl.ofFrame p f
    let refused := fun x : Status => Host.Outcome.next (s.withReply p (c.response s.unitAddress x []))
    let within := natAt f 22 2 ≤ 1024 ∧ 24 + natAt f 22 2 ≤ f.length - 4
    (byteAt f 14 ≠ 1 → arrival p f s = refused .badVersion) ∧
    (byteAt f 14 = 1 → ¬ within → arrival p f s = refused .badLength) ∧
    (byteAt f 14 = 1 → within → Cmd.ofCode (byteAt f 16) = none → arrival p f s = refused .badCode) ∧
    (∀ k, byteAt f 14 = 1 → within → Cmd.ofCode (byteAt f 16) = some k →
      (k.lengthOk (natAt f 22 2) = false → arrival p f s = refused .badLength) ∧
      (k.lengthOk (natAt f 22 2) = true → byteAt f 15 ≠ 1 → arrival p f s = refused .badCode) ∧
      (k.lengthOk (natAt f 22 2) = true → byteAt f 15 = 1 → k.permitted p = false →
        arrival p f s = refused .notPermitted)) := by
  intro c refused within
  have fits : within → c.fits = true := (Ctl.fits_iff p f).2
  have unfit : ¬ within → c.fits = false := fun out => Bool.eq_false_iff.2 fun fit => out ((Ctl.fits_iff p f).1 fit)
  have answered : ∀ x : Status, (∀ u : State, u.judge c = u.answer c x []) → arrival p f s = refused x :=
    fun _ => arrival_refused sound control hs hj
  refine ⟨fun version => ?_, fun version out => ?_, fun version inside code => ?_, fun k version inside code =>
    ⟨fun length => ?_, fun length kind => ?_, fun length kind barred => ?_⟩⟩
  · exact answered _ fun u => u.judge_badVersion c version
  · exact answered _ fun u => u.judge_unfit c version (unfit out)
  · exact answered _ fun u => u.judge_noCommand c version (fits inside) code
  · exact answered _ fun u => u.judge_badLength c version code length
  · exact answered _ fun u => (u.judge_command_of_fits c version (fits inside) code length).trans
      (u.judgeCommand_badKind c kind)
  · exact answered _ fun u => (u.judge_command_of_fits c version (fits inside) code length).trans
      (u.judgeCommand_notPermitted c kind barred)

/-- Settles O14: the checks at either port, and the table of R130 row by row. -/
theorem checksBeforeTheSession : Obligations.ChecksBeforeTheSession := by
  refine ⟨fun p f s sound control hs hj => ?checks, ?table, fun _ _ => Cmd.ofCode_eq_some_iff, rfl⟩
  case checks =>
    cases p
    all_goals exact checks_of_arrival sound control hs hj
  case table =>
    intro row managed stationed
    refine ⟨?_, ?_, ?_, ?_, ?_, ?_, ?_, ?_, ?_, ?_, ?_, ?_, ?_, ?_, ?_, ?_, ?_, ?_, ?_, ?_, ?_, ?_, ?_, ?_⟩
    all_goals
      refine ⟨rfl, rfl, rfl, rfl, fun n => ?_⟩
      simp [Cmd.lengthOk]

end Sys2Proof.Machine
end

section
/-! Traffic: its path, the errors of intake, and what a rule's matching means. -/

namespace Sys2Proof.Machine

/-! ## Settling where one arbiter's choice alone can be due -/

/-- Only the line's choice can be due, and no notice. -/
theorem State.settle_of_lineChoice {s : State} (reset : s.resetDue = false) (releaseEnd : s.releaseEndDue = false)
    (drainEnd : s.drainEndDue = false) (delivery : s.deliveryDue = false) (stationChoice : s.stationChoiceDue = false)
    (offer : s.offerDue = false) : s.settle = s.settleLine := by
  have after := State.settleLine_due s
  rw [State.settle, State.settleReset_of_not reset, State.settleReleaseEnd_of_not releaseEnd,
    State.settleDrainEnd_of_not drainEnd, State.settleDelivery_of_not delivery,
    State.settleStation_of_not (after.2.1.trans stationChoice), State.settleOffer_of_not (after.2.2.1.trans offer),
    State.settleLine_of_not after.1]

/-- Only the station's choice can be due. -/
theorem State.settle_of_stationChoice {s : State} (reset : s.resetDue = false) (releaseEnd : s.releaseEndDue = false)
    (drainEnd : s.drainEndDue = false) (delivery : s.deliveryDue = false) (lineChoice : s.lineChoiceDue = false)
    (offer : s.offerDue = false) : s.settle = s.settleStation := by
  have after := State.settleStation_due s
  rw [State.settle, State.settleReset_of_not reset, State.settleReleaseEnd_of_not releaseEnd,
    State.settleDrainEnd_of_not drainEnd, State.settleDelivery_of_not delivery, State.settleLine_of_not lineChoice,
    State.settleOffer_of_not (after.2.2.1.trans offer), State.settleLine_of_not (after.2.1.trans lineChoice)]

/-- A line transmitter that was idle with nothing to send begins with the transit frame that joined. -/
theorem State.settleLine_joined {s u : State} (hs : s.lineChoiceDue = false) (up : s.line.linkUp = true)
    (line : u.line = s.line) (answers : u.answers = s.answers) (some_frame : u.transit.toLine ≠ []) :
    u.settleLine = u.setLine { s.line with tx := some (s.line.tx.getD .transit) } := by
  cases tx : s.line.tx with
  | some x =>
    rw [State.settleLine_of_not (by simp [State.lineChoiceDue, line, tx])]
    rw [Option.getD_some, ← tx, ← line]
    rfl
  | none =>
    have empty : s.line.control = [] ∧ s.answers.queue = [] := by
      have nothing := hs
      simp only [State.lineChoiceDue, tx, up, Option.isNone_none, Bool.true_and, Bool.not_eq_false', Bool.and_eq_true,
        List.isEmpty_iff] at nothing
      exact nothing.1
    rw [State.settleLine_of_due (by simp [State.lineChoiceDue, line, tx, up, some_frame])]
    simp [State.lineChoice, line, answers, empty.1, empty.2]

/-- A station transmitter that was idle with nothing to send begins with the transit frame that joined. -/
theorem State.settleStation_joined {s u : State} (hs : s.stationChoiceDue = false) (up : s.station.linkUp = true)
    (station : u.station = s.station) (delivering : u.delivering = s.delivering)
    (some_frame : u.transit.toStation ≠ []) :
    u.settleStation = u.setStation { s.station with tx := some (s.station.tx.getD .transit) } := by
  cases tx : s.station.tx with
  | some x =>
    rw [State.settleStation_of_not (by simp [State.stationChoiceDue, station, tx])]
    rw [Option.getD_some, ← tx, ← station]
    rfl
  | none =>
    have empty : s.station.control = [] ∧ s.delivering = none := by
      have nothing := hs
      simp only [State.stationChoiceDue, tx, up, Option.isNone_none, Bool.true_and, Bool.not_eq_false',
        Bool.and_eq_true, List.isEmpty_iff, Option.isNone_iff_eq_none] at nothing
      exact nothing.1
    rw [State.settleStation_of_due (by simp [State.stationChoiceDue, station, tx, up, some_frame])]
    simp [State.stationChoice, station, delivering, empty.1, empty.2]

/-! ## The reception of traffic -/

@[simp] theorem State.takenIn_keeps (s : State) (p : Port) :
    (s.takenIn p).pins = s.pins ∧ (s.takenIn p).time = s.time ∧ (s.takenIn p).ctx = s.ctx ∧
    (s.takenIn p).rules = s.rules ∧ (s.takenIn p).hold = s.hold ∧ (s.takenIn p).releaseTimer = s.releaseTimer ∧
    (s.takenIn p).wake = s.wake ∧ (s.takenIn p).answers = s.answers ∧ (s.takenIn p).transit = s.transit ∧
    (s.takenIn p).responder = s.responder ∧ (s.takenIn p).notices = s.notices := by
  cases p <;> simp [State.takenIn]

@[simp] theorem State.takenIn_line (s : State) (p : Port) :
    (s.takenIn p).line.linkUp = s.line.linkUp ∧ (s.takenIn p).line.tx = s.line.tx ∧
    (s.takenIn p).line.control = s.line.control := by
  cases p <;> simp [State.takenIn]

@[simp] theorem State.takenIn_station (s : State) (p : Port) :
    (s.takenIn p).station.linkUp = s.station.linkUp ∧ (s.takenIn p).station.tx = s.station.tx ∧
    (s.takenIn p).station.control = s.station.control := by
  cases p <;> simp [State.takenIn]

/-- The count of a reception leaves a settled state settled. -/
theorem State.takenIn_nothingDue {s : State} (p : Port) (hs : s.nothingDue = true) :
    (s.takenIn p).nothingDue = true := by
  rw [← hs]
  apply State.nothingDue_congr <;> simp

theorem State.settle_countLinkDown {s : State} (p : Port) (n : Nat) (hs : s.nothingDue = true) :
    (s.countLinkDown p n).settle = s.countLinkDown p n := by
  cases p
  all_goals apply State.settle_of_counted hs <;> rfl

theorem State.settle_countTransitDrop {s : State} (p : Port) (hs : s.nothingDue = true) :
    (s.countTransitDrop p).settle = s.countTransitDrop p := by
  cases p
  all_goals apply State.settle_of_counted hs <;> rfl

/-! ## The path of the station state (R3, R79, R115) -/

section
variable {s : State} (f : Frame)

theorem State.joinToStation_down (down : s.station.linkUp = false) :
    s.joinToStation f = s.countLinkDown .station 1 := by
  simp [State.joinToStation, down]

theorem State.joinToStation_full (up : s.station.linkUp = true) (full : 4 ≤ s.transit.toStation.length) :
    s.joinToStation f = s.countTransitDrop .station := by
  simp [State.joinToStation, up, Config.transitCap, full]

theorem State.joinToStation_room (up : s.station.linkUp = true) (room : s.transit.toStation.length < 4) :
    s.joinToStation f = s.setTransit { s.transit with toStation := s.transit.toStation ++ [f] } := by
  simp [State.joinToStation, up, Config.transitCap, not_le.2 room]

theorem State.joinToLine_down (down : s.line.linkUp = false) : s.joinToLine f = s.countLinkDown .line 1 := by
  simp [State.joinToLine, down]

theorem State.joinToLine_full (up : s.line.linkUp = true) (full : 4 ≤ s.transit.toLine.length) :
    s.joinToLine f = s.countTransitDrop .line := by
  simp [State.joinToLine, up, Config.transitCap, full]

theorem State.joinToLine_room (up : s.line.linkUp = true) (room : s.transit.toLine.length < 4) :
    s.joinToLine f = s.setTransit { s.transit with toLine := s.transit.toLine ++ [f] } := by
  simp [State.joinToLine, up, Config.transitCap, not_le.2 room]

theorem State.lineTraffic_awake (awake : s.ctx.station = .awake) : s.lineTraffic f = s.joinToStation f := by
  simp [State.lineTraffic, awake]

theorem State.lineTraffic_releasing (releasing : s.ctx.station = .releasing) :
    s.lineTraffic f = s.offerFrame .b .backlog f := by
  simp [State.lineTraffic, releasing]

theorem State.lineTraffic_away (away : s.ctx.station.away = true) : s.lineTraffic f = s.classify f := by
  cases station : s.ctx.station <;> simp [State.lineTraffic, station, StationState.away] at away ⊢

/-- A frame that joins L→S transit in AWAKE. -/
theorem State.settle_toStation {s : State} (f : Frame) (hs : s.nothingDue = true) (awake : s.ctx.station = .awake)
    (up : s.station.linkUp = true) :
    (s.setTransit { s.transit with toStation := s.transit.toStation ++ [f] }).settle =
      (s.setTransit { s.transit with toStation := s.transit.toStation ++ [f] }).setStation
        { s.station with tx := some (s.station.tx.getD .transit) } := by
  obtain ⟨reset, releaseEnd, _, _, lineChoice, stationChoice, offer⟩ := (State.nothingDue_iff s).1 hs
  rw [State.settle_of_stationChoice (s := s.setTransit { s.transit with toStation := s.transit.toStation ++ [f] })
    reset releaseEnd (by simp [State.drainEndDue, awake]) (by simp [State.deliveryDue, awake]) lineChoice offer]
  exact State.settleStation_joined stationChoice up rfl rfl (by simp)

/-- A frame that joins S→L transit. -/
theorem State.settle_toLine {s : State} (f : Frame) (hs : s.nothingDue = true) (up : s.line.linkUp = true) :
    (s.setTransit { s.transit with toLine := s.transit.toLine ++ [f] }).settle =
      (s.setTransit { s.transit with toLine := s.transit.toLine ++ [f] }).setLine
        { s.line with tx := some (s.line.tx.getD .transit) } := by
  obtain ⟨reset, releaseEnd, drainEnd, delivery, lineChoice, stationChoice, offer⟩ := (State.nothingDue_iff s).1 hs
  rw [State.settle_of_lineChoice (s := s.setTransit { s.transit with toLine := s.transit.toLine ++ [f] })
    reset releaseEnd drainEnd delivery stationChoice offer]
  exact State.settleLine_joined lineChoice up rfl rfl (by simp)

/-- An offer to the hold store in RELEASING: a report may be raised, and nothing else becomes due. -/
theorem State.settle_backlog {s : State} (f : Frame) (hs : s.nothingDue = true)
    (releasing : s.ctx.station = .releasing) :
    (s.offerFrame .b .backlog f).settle = (s.offerFrame .b .backlog f).settleOffer.settleLine := by
  obtain ⟨reset, releaseEnd, _, delivery, lineChoice, stationChoice, _⟩ := (State.nothingDue_iff s).1 hs
  obtain ⟨ctx, -⟩ := State.offerFrame_backlog_ctx s .backlog f
  obtain ⟨delivering, -, nonempty⟩ := HoldStore.offer_parts s.hold .b .backlog f s.time
  have waits : s.hold.list.isEmpty = false := by simpa [State.releaseEndDue, releasing] using releaseEnd
  have still := nonempty waits
  have same : (s.offerFrame .b .backlog f).delivering = s.delivering := by
    rw [State.delivering, State.offerFrame_hold, delivering, State.delivering]
  refine State.settle_of_offer ?_ ?_ ?_ ?_ ?_ ?_
  · simpa [State.resetDue] using reset
  · simp [State.releaseEndDue, State.offerFrame_hold, still]
  · simp [State.drainEndDue, ctx, releasing]
  · rw [← delivery, State.deliveryDue, State.deliveryDue, same, ctx, State.offerFrame_hold, still, waits]
    simp
  · simpa [State.lineChoiceDue] using lineChoice
  · rw [← stationChoice, State.stationChoiceDue, State.stationChoiceDue, same]
    simp

/-- A classification in an away state: an answer, a report or a wake may follow, and no step of the release. -/
theorem State.settle_classify {s : State} (f : Frame) (hs : s.nothingDue = true) (away : s.ctx.station.away = true) :
    (s.classify f).settle = (s.classify f).settleLine.settleOffer.settleLine := by
  obtain ⟨reset, _, drainEnd, _, _, stationChoice, _⟩ := (State.nothingDue_iff s).1 hs
  obtain ⟨delivering, still, moved⟩ := State.classify_parts s f
  have notReleasing : (s.classify f).ctx.station ≠ .releasing := fun h => by
    rw [h, away] at still; cases still
  have noEnd := State.settleReleaseEnd_of_ne notReleasing
  have noDrain : (s.classify f).drainEndDue = false := by
    rcases moved with same | waking
    · rw [← drainEnd, State.drainEndDue, State.drainEndDue, State.drained, State.drained, delivering, same]
      simp
    · simp [State.drainEndDue, waking]
  have noChoice : (s.classify f).stationChoiceDue = false := by
    rw [← stationChoice, State.stationChoiceDue, State.stationChoiceDue, delivering]
    simp
  rw [State.settle_of_idle (by simpa [State.resetDue] using reset) (by rwa [noEnd])
    (by rw [noEnd]; simp [State.deliveryDue, notReleasing])
    (by rw [noEnd, (State.settleLine_due _).2.1, noChoice]), noEnd]

end

/-- Settles O16: the branch of `State.lineTraffic` for the station state, and what each leaves due. -/
theorem lineTrafficTakesThePathOfTheState : Obligations.LineTrafficTakesThePathOfTheState := by
  refine ⟨fun s f hs hr sound traffic => ?_, rfl⟩
  have counted : (s.takenIn .line).nothingDue = true := State.takenIn_nothingDue .line (hs hr.high)
  rw [exec_lineTraffic hr sound traffic]
  refine ⟨fun awake down => ?_, fun awake up full => ?_, fun awake up room => ?_, fun releasing => ?_, fun away => ?_⟩
  · rw [State.lineTraffic_awake f (by simpa using awake), State.joinToStation_down f (by simpa using down),
      State.settle_countLinkDown _ _ counted]
  · rw [State.lineTraffic_awake f (by simpa using awake),
      State.joinToStation_full f (by simpa using up) (by simpa using full), State.settle_countTransitDrop _ counted]
  · rw [State.lineTraffic_awake f (by simpa using awake),
      State.joinToStation_room f (by simpa using up) (by simpa using room),
      State.settle_toStation f counted (by simpa using awake) (by simpa using up)]
    rfl
  · rw [State.lineTraffic_releasing f (by simpa using releasing),
      State.settle_backlog f counted (by simpa using releasing)]
  · rw [State.lineTraffic_away f (by simpa using away), State.settle_classify f counted (by simpa using away)]

/-- Settles O17: the three branches of `State.joinToLine`. -/
theorem stationTrafficCrossesToTheLine : Obligations.StationTrafficCrossesToTheLine := by
  refine ⟨fun s f hs hr sound traffic => ?_, fun s => ⟨rfl, rfl, rfl, rfl⟩⟩
  have counted : (s.takenIn .station).nothingDue = true := State.takenIn_nothingDue .station (hs hr.high)
  rw [exec_stationTraffic hr sound traffic]
  refine ⟨fun down => ?_, fun up full => ?_, fun up room => ?_⟩
  · rw [State.joinToLine_down f (by simpa using down), State.settle_countLinkDown _ _ counted]
  · rw [State.joinToLine_full f (by simpa using up) (by simpa using full), State.settle_countTransitDrop _ counted]
  · rw [State.joinToLine_room f (by simpa using up) (by simpa using room),
      State.settle_toLine f counted (by simpa using up)]
    rfl

/-! ## Intake (R112) -/

theorem intakeOk_iff (f : Frame) : intakeOk f = true ↔
    64 ≤ f.length ∧ f.length ≤ 1522 ∧ f.drop (f.length - 4) = fcsBytes (f.take (f.length - 4)) := by
  simp only [intakeOk, fcsChecks, Bool.and_eq_true, beq_iff_eq, and_assoc]
  exact and_congr decide_eq_true_iff (and_congr_left fun _ => decide_eq_true_iff)

/-- The FCS takes its bytes in order, the last one last. -/
theorem fcs_append_singleton (l : List Byte) (b : Byte) :
    ~~~fcs (l ++ [b]) = fcsShifts 8 (~~~fcs l ^^^ b.setWidth 32) := by
  simp [fcs, fcsByte]

theorem fcsBytes_eq (l : List Byte) : fcsBytes l = [0, 8, 16, 24].map fun k => (fcs l >>> k).setWidth 8 := by
  simp [fcsBytes, le32, fieldByte_eq]

/-- The check value of the nine characters 1 to 9. -/
theorem fcs_digits : fcs [0x31, 0x32, 0x33, 0x34, 0x35, 0x36, 0x37, 0x38, 0x39] = 0xCBF43926#32 := by decide +kernel

/-- A frame that fails intake is counted, and a settled part stays as it was. -/
theorem State.receive_intakeError {s : State} {p : Port} {f : Frame} (hs : s.nothingDue = true)
    (up : s.linkUp p = true) (bad : intakeOk f = false) : s.receive p f = (s.setRx p none).countIntakeError p := by
  have settled : ((s.setRx p none).countIntakeError p).settle = (s.setRx p none).countIntakeError p := by
    cases p
    all_goals apply State.settle_of_counted hs <;> rfl
  simp only [State.receive, State.intake, up, bad, settled, Bool.not_false, if_true]

/-- Settles O18: an intake error by `State.receive_intakeError`; the check's values are evaluated. -/
theorem intakeErrorsStopAtThePort : Obligations.IntakeErrorsStopAtThePort := by
  refine ⟨fun s f hs bad => ⟨fun hr => ?_, fun hr => ?_⟩, intakeOk_iff, fcs_digits, ?_, fcs_append_singleton,
    by simp [fcs], fcsBytes_eq, fun r => rfl, fun n r => rfl⟩
  · exact (State.event_high _ hr.high).trans (congrArg _ (State.receive_intakeError (hs hr.high) hr.up bad))
  · exact (State.event_high _ hr.high).trans (congrArg _ (State.receive_intakeError (hs hr.high) hr.up bad))
  · rw [fcsBytes, fcs_digits]
    decide

end Sys2Proof.Machine
end

section
/-! The classification event, the five conditions of a match, and composition. -/

namespace Sys2Proof.Machine

/-! ## The classification event (R35 to R38) -/

/-- The match count of a present entry is advanced. -/
theorem Classifier.countMatch_eq {c : Classifier} {i : Nat} {e : ActiveEntry} {r : RuleRecord}
    (entry : c.active[i]? = some e) (record : e.record = some r) :
    c.countMatch i = { c with active := c.active.set i { record := some r, count := e.count + 1 } } := by
  have bumped : c.active.modify i ActiveEntry.bump = c.active.set i { record := some r, count := e.count + 1 } := by
    rw [List.modify_eq_set_getElem?, entry]
    simp [ActiveEntry.bump, record]
  rw [Classifier.countMatch, bumped]

theorem State.classify_of_found {s : State} {f : Frame} {i : Nat} {r : RuleRecord}
    (found : findRule s.activeProfile.sets (destClass s.ctx.address f) f 0 s.rules.active = some (i, r)) :
    s.classify f = if r.wake then ((s.setRules (s.rules.countMatch i)).dispose i r.disposition f).wakeDecision .ruleWake
      else (s.setRules (s.rules.countMatch i)).dispose i r.disposition f := by
  rw [State.classify, found]

theorem State.classify_of_none {s : State} {f : Frame}
    (found : findRule s.activeProfile.sets (destClass s.ctx.address f) f 0 s.rules.active = none) :
    s.classify f = s.disposeByDefault f := by
  rw [State.classify, found]

/-- Settles O19: what the search finds (`findRule_some`, `findRule_none`), and the definition of the event. -/
theorem firstMatchingRuleGoverns : Obligations.FirstMatchingRuleGoverns := by
  refine ⟨fun s f i e r entry record matched before => ?_, fun s f unmatched => ?_, rfl⟩
  · have found := findRule_some s.rules.active 0 i e r entry record matched before
    rw [Nat.zero_add] at found
    rw [State.classify_of_found found, Classifier.countMatch_eq entry record]
    cases r.disposition <;> rfl
  · rw [State.classify_of_none (findRule_none s.rules.active 0 unmatched)]
    refine ⟨fun discard => ?_, fun c hold => ?_⟩
    · rw [State.disposeByDefault, discard]
    · rw [State.disposeByDefault, hold]

/-! ## The five conditions (R27 to R33) -/

theorem Guard.accepts_iff (g : Guard) (d : DestClass) : g.accepts d = true ↔
    g = .any ∨ (g = .broadcast ∧ d = .broadcast) ∨ (g = .group ∧ d = .group) ∨
      (g = .toStation ∧ d = .toStation) ∨ (g = .unicastOther ∧ d = .unicastOther) := by
  cases g
  case any => simp [Guard.accepts]
  all_goals cases d <;> simp [Guard.accepts]

theorem RuleRecord.matchesFrame_iff (r : RuleRecord) (sets : BitVec 4) (d : DestClass) (f : Frame) :
    r.matchesFrame sets d f = true ↔
      r.sets &&& sets ≠ 0 ∧ r.guard.accepts d = true ∧ (r.minLength = 0 ∨ r.minLength ≤ f.length) ∧
      r.windowOffset + r.mask.length ≤ f.length ∧ r.test.succeeds (r.selected f) = true := by
  simp only [RuleRecord.matchesFrame, RuleRecord.windowFits, Bool.and_eq_true, Bool.or_eq_true, bne_iff_ne, beq_iff_eq,
    decide_eq_true_eq, and_assoc]

theorem RuleRecord.mem_offsets (r : RuleRecord) (offset : Nat) :
    offset ∈ r.offsets ↔ ∃ k, r.mask[k]? = some true ∧ offset = r.windowOffset + k := by
  simp only [RuleRecord.offsets, List.mem_map, List.mem_filter, List.mem_range]
  constructor
  · rintro ⟨k, ⟨inside, selected⟩, rfl⟩
    rw [List.getD_eq_getElem _ _ inside] at selected
    exact ⟨k, by rw [List.getElem?_eq_getElem inside, selected], rfl⟩
  · rintro ⟨k, selected, rfl⟩
    obtain ⟨inside, -⟩ := List.getElem?_eq_some_iff.1 selected
    exact ⟨k, ⟨inside, by simp [selected]⟩, rfl⟩

/-- The selected bytes stand in ascending order of offset (R29). -/
theorem RuleRecord.offsets_ascending (r : RuleRecord) : r.offsets.Pairwise (· < ·) := by
  rw [RuleRecord.offsets, List.pairwise_map]
  refine (List.pairwise_lt_range.filter _).imp fun below => ?_
  omega

theorem macBytes_injective {x y : Mac} (same : macBytes x = macBytes y) : x = y := by
  have numbers := congrArg beNat same
  rw [beNat_macBytes, beNat_macBytes] at numbers
  exact BitVec.eq_of_toNat_eq numbers

theorem groupBit_eq (a : Mac) : groupBit a = (byteAt (macBytes a) 0).getLsbD 0 := by
  simp [groupBit, byteAt, macBytes, fieldByte]

/-- The destination class by the frame's bytes (R27). -/
theorem destClass_eq (a : Option Mac) {f : Frame} (long : 6 ≤ f.length) :
    macBytes (macAt f 0) = f.take 6 ∧
    destClass a f =
      if f.take 6 = List.replicate 6 0xFF then .broadcast
      else if (byteAt f 0).getLsbD 0 then .group
      else if a = some (macAt f 0) then .toStation
      else .unicastOther := by
  have bytes : macBytes (macAt f 0) = f.take 6 := macBytes_ofNat_beNat (by simp; omega)
  have ones : macBytes (BitVec.allOnes 48) = List.replicate 6 0xFF := by decide
  have broadcast : macAt f 0 = BitVec.allOnes 48 ↔ f.take 6 = List.replicate 6 0xFF := by
    rw [← bytes, ← ones]
    exact ⟨fun same => by rw [same], macBytes_injective⟩
  have group : groupBit (macAt f 0) = (byteAt f 0).getLsbD 0 := by
    rw [groupBit_eq, bytes, byteAt_take (by omega)]
  refine ⟨bytes, ?_⟩
  simp only [destClass, broadcast, group]

/-- Settles O20: the conjunction of the definition, and the selection offset by offset. -/
theorem matchingIsTheFiveConditions : Obligations.MatchingIsTheFiveConditions := by
  refine ⟨fun r sets d f => ?_, fun r f => r.selected_eq f, fun r => ⟨r.offsets_ascending, r.mem_offsets⟩,
    fun a f => destClass_eq a⟩
  rw [RuleRecord.matchesFrame_iff, Guard.accepts_iff]

/-! ## Composition (R104, R105) -/

/-- The bytes of a source, place by place (R101). -/
def State.sourceByte (s : State) (f : Frame) (k : Nat) : Source → Byte
  | .triggerSource => byteAt f (6 + k)
  | .stationAddress => byteAt (macBytes (s.ctx.address.getD 0)) k
  | .unitAddress => byteAt (macBytes s.unitAddress) k
  | .triggerBytes off _ => byteAt f (off + k)

/-- What a source supplies, place by place. -/
theorem State.supply_byte {s : State} {f : Frame} {x : Source} {b : List Byte} {k : Nat}
    (supplied : s.supply f x = some b) (inside : k < x.size) : byteAt b k = s.sourceByte f k x := by
  cases x with
  | triggerSource =>
    obtain rfl := Option.some.inj supplied
    rw [byteAt_take (show k < 6 from inside), byteAt_drop, State.sourceByte]
  | stationAddress =>
    obtain ⟨a, known, rfl⟩ := Option.map_eq_some_iff.1 supplied
    rw [State.sourceByte, known, Option.getD_some]
  | unitAddress =>
    obtain rfl := Option.some.inj supplied
    rfl
  | triggerBytes off n =>
    simp only [State.supply] at supplied
    split at supplied
    · obtain rfl := Option.some.inj supplied
      rw [byteAt_take (show k < n from inside), byteAt_drop, State.sourceByte]
    · cases supplied

/-- A byte that a substitution covers, and no later one, is the source's: the last one to cover it wins (R104). -/
theorem State.substitute_byte {s : State} {f : Frame} (long : 12 ≤ f.length) {after : List Substitution}
    {sub : Substitution} {k : Nat} (inside : k < sub.source.size)
    (last : ∀ x ∈ after, sub.target + k < x.target ∨ x.target + x.source.size ≤ sub.target + k) :
    ∀ (before : List Substitution) (body : List Byte),
      (∀ x ∈ before ++ sub :: after, s.supply f x.source ≠ none) →
      (∀ x ∈ before ++ sub :: after, x.target + x.source.size ≤ body.length) →
      ∀ out, s.substitute f (before ++ sub :: after) body = some out →
        byteAt out (sub.target + k) = s.sourceByte f k sub.source := by
  intro before
  induction before with
  | nil =>
    intro body supplied fits out substituted
    obtain ⟨b, supply⟩ := Option.ne_none_iff_exists'.1 (supplied sub (by simp))
    have size := State.supply_length long supply
    have fit := fits sub (by simp)
    obtain ⟨length, -, written⟩ := overwrite_spec (body := body) (b := b) (o := sub.target) (by omega)
    obtain ⟨out', rest, -, untouched, -⟩ := State.substitute_some long after (overwrite body sub.target b)
      (fun x hx => supplied x (by simp [hx])) (fun x hx => by rw [length]; exact fits x (by simp [hx]))
    have same : out' = out := by
      simpa [State.substitute, supply, rest] using substituted
    subst same
    rw [byteAt_eq, untouched _ last, written k (by omega), ← byteAt_eq]
    exact State.supply_byte supply inside
  | cons x before ih =>
    intro body supplied fits out substituted
    obtain ⟨b, supply⟩ := Option.ne_none_iff_exists'.1 (supplied x (by simp))
    have size := State.supply_length long supply
    have fit := fits x (by simp)
    obtain ⟨length, -, -⟩ := overwrite_spec (body := body) (b := b) (o := x.target) (by omega)
    refine ih (overwrite body x.target b) (fun y hy => supplied y (List.mem_cons_of_mem _ hy))
      (fun y hy => by rw [length]; exact fits y (List.mem_cons_of_mem _ hy)) out ?_
    simpa [State.substitute, supply] using substituted

section
variable {s : State} {f : Frame} {i : Fin 16} {t : Template}

theorem State.compose_undefined (undefined : s.answers.templates.getD i.val none = none) :
    s.compose f i = s.setAnswers { s.answers with undefinedTemplate := s.answers.undefinedTemplate + 1 } := by
  simp only [State.compose, undefined]

theorem State.compose_short (template : s.answers.templates.getD i.val none = some t)
    (short : s.substitute f t.substitutions t.body = none) :
    s.compose f i = s.setAnswers { s.answers with shortTrigger := s.answers.shortTrigger + 1 } := by
  simp only [State.compose, template, short]

theorem State.compose_full {body : List Byte} (template : s.answers.templates.getD i.val none = some t)
    (substituted : s.substitute f t.substitutions t.body = some body) (full : 4 ≤ s.answers.queue.length) :
    s.compose f i = s.setAnswers { s.answers with queueFull := s.answers.queueFull + 1 } := by
  simp only [State.compose, template, substituted, Config.answerCap, full, if_true]

theorem State.compose_queued {body : List Byte} (template : s.answers.templates.getD i.val none = some t)
    (substituted : s.substitute f t.substitutions t.body = some body) (room : s.answers.queue.length < 4) :
    s.compose f i = s.setAnswers { s.answers with queue := s.answers.queue ++ [body ++ fcsBytes body] } := by
  simp only [State.compose, template, substituted, Config.answerCap, not_le.2 room, if_false, closed]

/-- Sources that can all supply their bytes substitute them all. -/
theorem State.substitute_isSome (s : State) (f : Frame) : ∀ (l : List Substitution) (body : List Byte),
    (∀ x ∈ l, s.supply f x.source ≠ none) → ∃ out, s.substitute f l body = some out := by
  intro l
  induction l with
  | nil => exact fun body _ => ⟨body, rfl⟩
  | cons x l ih =>
    intro body supplied
    obtain ⟨b, supply⟩ := Option.ne_none_iff_exists'.1 (supplied x (by simp))
    obtain ⟨out, rest⟩ := ih (overwrite body x.target b) fun y hy => supplied y (List.mem_cons_of_mem _ hy)
    exact ⟨out, by simp only [State.substitute, supply, rest]⟩

end

/-- Settles O23: the four outcomes of `State.compose`, and the composed body byte by byte (`State.substitute_some`,
`State.substitute_byte`). -/
theorem compositionQueuesOrCounts : Obligations.CompositionQueuesOrCounts := by
  refine ⟨fun s f i => ⟨State.compose_undefined, fun t template =>
    ⟨fun ⟨sub, listed, short⟩ => ?_, fun supplied => ?_⟩⟩,
    rfl, rfl, rfl, fun off n => rfl, fun l k b found => by rw [byteAt_eq, found, Option.getD_some]⟩
  · exact State.compose_short template (State.substitute_none _ _ ⟨sub, listed, State.supply_none.2 short⟩)
  · have supply : ∀ sub ∈ t.substitutions, s.supply f sub.source ≠ none := by
      intro sub listed missing
      obtain ⟨known, long⟩ := supplied sub listed
      obtain ⟨source, unknown⟩ | ⟨off, n, source, short⟩ := State.supply_none.1 missing
      · exact known source unknown
      · exact absurd (long off n source) (by omega)
    refine ⟨fun full => ?_, fun room fitting long => ?_⟩
    · obtain ⟨body, substituted⟩ := State.substitute_isSome s f t.substitutions t.body supply
      exact State.compose_full template substituted full
    · obtain ⟨body, substituted, length, untouched, -⟩ :=
        State.substitute_some long t.substitutions t.body supply fitting.fits
      refine ⟨body, State.compose_queued template substituted room, length, fun k outside => ?_,
        fun before sub after k split inside last => ?_⟩
      · rw [byteAt_eq, byteAt_eq, untouched k outside]
      · have fits := fitting.fits
        rw [split] at substituted supply fits
        exact (State.substitute_byte long inside last before t.body supply fits body substituted).trans
          (by cases sub.source <;> rfl)

end Sys2Proof.Machine
end

section
/-! The hold store: admissions, evictions and expiries. -/

namespace Sys2Proof.Machine

/-! ## Admissions (R56, R57, R59) -/

/-- The four conditions of R56. -/
theorem HoldStore.fits_iff (h : HoldStore) (c : HoldClass) (n : Nat) : h.fits c n = true ↔
    h.list.length < 128 ∧ n ≤ h.freeBlocks ∧ (h.accounts.get c).used + n ≤ (h.configs.get c).quota ∧
      ∀ d rest, h.list = d :: rest → (h.nextSerial - d.serial).toNat ≤ 32767 := by
  have serials : h.serialRoom = true ↔ ∀ d rest, h.list = d :: rest → (h.nextSerial - d.serial).toNat ≤ 32767 := by
    rw [HoldStore.serialRoom]
    split
    · next empty => simp [empty]
    · next d rest list =>
      rw [decide_eq_true_iff]
      constructor
      · intro room d' rest' same
        obtain ⟨rfl, rfl⟩ := List.cons.inj (list.symm.trans same)
        exact room
      · exact fun room => room d rest list
  simp only [HoldStore.fits, Bool.and_eq_true, and_assoc, serials]
  exact and_congr decide_eq_true_iff (and_congr decide_eq_true_iff (and_congr_left fun _ => decide_eq_true_iff))

section
variable {s : State} {c : HoldClass} (o : Origin) {f : Frame}

/-- A frame that fits is admitted, whatever the policy. -/
theorem State.offerFrame_fits (fits : s.hold.fits c (blocksFor f.length) = true) :
    s.offerFrame c o f = s.setHold (s.hold.accept c o f s.time) := by
  simp only [State.offerFrame, HoldStore.offer, fits, if_true]

/-- REFUSE_NEW refuses and reports. -/
theorem State.offerFrame_refuseNew (full : s.hold.fits c (blocksFor f.length) = false)
    (policy : (s.hold.configs.get c).policy = .refuseNew) :
    s.offerFrame c o f = (s.setHold (s.hold.refuse c)).raise (.holdPressure c 1 0) := by
  simp only [State.offerFrame, HoldStore.offer, full, policy, Bool.false_eq_true, if_false]

/-- WAKE_ON_FULL refuses, reports, and decides to wake. -/
theorem State.offerFrame_wakeOnFull (full : s.hold.fits c (blocksFor f.length) = false)
    (policy : (s.hold.configs.get c).policy = .wakeOnFull) :
    s.offerFrame c o f =
      ((s.setHold (s.hold.refuse c)).raise (.holdPressure c 1 0)).wakeDecision .fullWake := by
  simp only [State.offerFrame, HoldStore.offer, full, policy, Bool.false_eq_true, if_false, if_true]

/-- EVICT_OLDEST where evictions suffice. -/
theorem State.offerFrame_evicted {h : HoldStore} {k : Nat} (full : s.hold.fits c (blocksFor f.length) = false)
    (policy : (s.hold.configs.get c).policy = .evictOldest)
    (evicted : HoldStore.evictUntil c (blocksFor f.length) s.hold.list.length s.hold = some (h, k)) :
    s.offerFrame c o f =
      (s.setHold (h.accept c o f s.time)).raise (.holdPressure c 0 (BitVec.ofNat 32 k)) := by
  simp only [State.offerFrame, HoldStore.offer, full, policy, evicted, Bool.false_eq_true, if_false]

/-- EVICT_OLDEST where no number of evictions suffices. -/
theorem State.offerFrame_unevictable (full : s.hold.fits c (blocksFor f.length) = false)
    (policy : (s.hold.configs.get c).policy = .evictOldest)
    (none : HoldStore.evictUntil c (blocksFor f.length) s.hold.list.length s.hold = none) :
    s.offerFrame c o f = (s.setHold (s.hold.refuse c)).raise (.holdPressure c 1 0) := by
  simp only [State.offerFrame, HoldStore.offer, full, policy, none, Bool.false_eq_true, if_false]

end

/-- A frame's blocks are the fewest of 128 bytes that hold it (R47). -/
theorem le_mul_blocksFor (n : Nat) : n ≤ 128 * blocksFor n ∧ 128 * blocksFor n < n + 128 := by
  show n ≤ 128 * ((n + (128 - 1)) / 128) ∧ 128 * ((n + (128 - 1)) / 128) < n + 128
  omega

/-- Settles O24: the offer by its fit and its policy. -/
theorem admissionFollowsThePolicy : Obligations.AdmissionFollowsThePolicy := by
  refine ⟨fun s c o f => ?_, le_mul_blocksFor, fun k => rfl⟩
  intro n account fits refused
  have full : ¬ fits → s.hold.fits c n = false := fun unfit =>
    Bool.eq_false_iff.2 fun fit => unfit ((s.hold.fits_iff c n).1 fit)
  refine ⟨fun fit => ?_, fun unfit policy => ?_, fun unfit policy => ?_⟩
  · exact State.offerFrame_fits o ((s.hold.fits_iff c n).2 fit)
  · exact State.offerFrame_refuseNew o (full unfit) policy
  · exact State.offerFrame_wakeOnFull o (full unfit) policy

/-! ## Evictions (R58) -/

theorem Descriptor.evictable_iff (c : HoldClass) (d : Descriptor) :
    d.evictable c = true ↔ d.state = .held ∧ d.cls = c := by
  simp [Descriptor.evictable, Descriptor.isHeld]

/-- Settles O25: the search by `HoldStore.evictUntil_spec`, one eviction by `HoldStore.removeFirst_eq`. -/
theorem evictionTakesTheFewestOldest : Obligations.EvictionTakesTheFewestOldest := by
  refine ⟨fun s c o f policy => ?_, fun h c before after d list held cls older => ?_,
    fun h c o f now n => ⟨h.fits_iff c n, rfl, rfl⟩⟩
  · intro n candidates after
    obtain ⟨found, none⟩ := HoldStore.evictUntil_spec c n s.hold.list.length s.hold (List.length_filter_le ..)
    refine ⟨fun k some_eviction enough fit fewer => ?_, fun never => ?_⟩
    · exact State.offerFrame_evicted o (fewer 0 some_eviction) policy (found k enough fit fewer)
    · exact State.offerFrame_unevictable o (never 0 (Nat.zero_le _)) policy (none never)
  · rw [HoldStore.removeFirst_eq .evicted list ((Descriptor.evictable_iff c d).2 ⟨held, cls⟩)
      fun x hx => Bool.eq_false_iff.2 fun evictable => older x hx ((Descriptor.evictable_iff c x).1 evictable), ← cls]
    rfl

/-! ## Events that are taken only where they are due -/

theorem State.event_when_due {s : State} {b : State → Bool} {f : State → State} (high : s.pins.resetn = true)
    (due : b s = true) : (s.event fun s => s.when (b s) f) = .next (f s) := by
  rw [State.event_high _ high, State.when_true _ due]

theorem State.event_when_notDue {s : State} {b : State → Bool} {f : State → State} (notDue : b s = false) :
    (s.event fun s => s.when (b s) f) = .next s := by
  cases high : s.pins.resetn
  · exact State.event_low _ high
  · rw [State.event_high _ high, State.when_false _ notDue]

/-! ## Expiry (R63, R64) -/

/-- Removing HELD descriptors from a settled state may end the release, and with it offer a notice. -/
theorem State.settle_of_removed {s : State} {H : HoldStore} (hs : s.nothingDue = true)
    (delivering : (s.setHold H).delivering = s.delivering) (empty : s.hold.list = [] → H.list = []) :
    (s.setHold H).settle = (s.setHold H).settleReleaseEnd.settleOffer.settleLine := by
  obtain ⟨reset, -, -, -, lineChoice, stationChoice, -⟩ := (State.nothingDue_iff s).1 hs
  obtain ⟨drainEnd, delivery⟩ := State.due_of_removed (u := s.setHold H) hs rfl rfl delivering rfl empty
  have same : (s.setHold H).stationChoiceDue = false := by
    rw [← stationChoice, State.stationChoiceDue, State.stationChoiceDue, delivering]
    rfl
  have after : (s.setHold H).settleReleaseEnd.drainEndDue = false ∧
      (s.setHold H).settleReleaseEnd.deliveryDue = false ∧
      (s.setHold H).settleReleaseEnd.stationChoiceDue = false ∧
      (s.setHold H).settleReleaseEnd.lineChoiceDue = false := by
    cases due : (s.setHold H).releaseEndDue with
    | false =>
      rw [State.settleReleaseEnd_of_not due]
      exact ⟨drainEnd, delivery, same, lineChoice⟩
    | true =>
      rw [State.settleReleaseEnd_of_due due]
      refine ⟨by simp [State.drainEndDue], by simp [State.deliveryDue], ?_, ?_⟩
      · rw [← same]
        simp [State.stationChoiceDue, State.delivering]
      · rw [← lineChoice]
        simp [State.lineChoiceDue]
  obtain ⟨noDrainEnd, noDelivery, noStationChoice, noLineChoice⟩ := after
  have idle := State.settleLine_of_not noLineChoice
  rw [State.settle_of_idle (s := s.setHold H) reset noDrainEnd noDelivery (by rw [idle]; exact noStationChoice), idle]

theorem State.expiring_iff (s : State) (serial : Word16) (d : Descriptor) : s.expiring serial d = true ↔
    d.serial = serial ∧ d.state = .held ∧ (s.hold.configs.get d.cls).lifetime ≠ 0 ∧
      (s.hold.configs.get d.cls).lifetime * 1000 ≤ (s.time - d.arrival).toNat := by
  simp only [State.expiring, Bool.and_eq_true, beq_iff_eq, Descriptor.expires_iff]

theorem exec_expiry_due {s : State} {serial : Word16} (hs : s.Settled) (high : s.pins.resetn = true)
    (due : s.hold.list.any (s.expiring serial) = true) :
    exec (.expiry serial) s = .next
      (s.setHold (s.hold.removeFirst (s.expiring serial) .expired)).settleReleaseEnd.settleOffer.settleLine := by
  have held : ∀ d ∈ s.hold.list, s.expiring serial d = true → d.isHeld = true := by
    intro d _ expiring
    obtain ⟨-, state, -⟩ := (s.expiring_iff serial d).1 expiring
    exact beq_iff_eq.2 state
  have stays : s.hold.list = [] → (s.hold.removeFirst (s.expiring serial) .expired).list = [] := by
    intro none
    rw [HoldStore.removeFirst_none _ (by simp [none]), none]
  have settled := State.settle_of_removed (H := s.hold.removeFirst (s.expiring serial) .expired) (hs high)
    (HoldStore.removeFirst_delivering .expired held) stays
  rw [← settled]
  exact State.event_when_due (b := fun s => s.hold.list.any (s.expiring serial)) high due

theorem exec_expiry_notDue {s : State} {serial : Word16} (notDue : s.hold.list.any (s.expiring serial) = false) :
    exec (.expiry serial) s = .next s :=
  State.event_when_notDue (b := fun s => s.hold.list.any (s.expiring serial)) notDue

/-- Settles O26: the removal of the first frame that expires, or none to remove. -/
theorem expiryRemovesTheFrame : Obligations.ExpiryRemovesTheFrame := by
  refine ⟨fun s before after d hs high list first held lifetime age => ?_, fun s serial none => ?_⟩
  · have expiring : s.expiring d.serial d = true := (s.expiring_iff d.serial d).2 ⟨rfl, held, lifetime, age⟩
    have older : ∀ x ∈ before, s.expiring d.serial x = false := fun x hx =>
      Bool.eq_false_iff.2 fun found => first x hx ((s.expiring_iff d.serial x).1 found).1
    rw [exec_expiry_due hs high (by rw [list]; simp [expiring]), HoldStore.removeFirst_eq .expired list expiring older]
    rfl
  · refine exec_expiry_notDue (Bool.eq_false_iff.2 fun due => ?_)
    obtain ⟨d, listed, expiring⟩ := List.any_eq_true.1 due
    obtain ⟨same, held, lifetime, age⟩ := (s.expiring_iff serial d).1 expiring
    rcases none d listed same with delivering | unlimited | young
    · rw [held] at delivering
      cases delivering
    · exact lifetime unlimited
    · omega

end Sys2Proof.Machine
end

section
/-! The hold store's commands: CLASS_WRITE, HOLD_PURGE, CLASS_READ, HOLD_LIST. -/

namespace Sys2Proof.Machine

/-! ## What a removal leaves -/

theorem HoldStore.eq_of_parts {g h : HoldStore} (free : g.freeBlocks = h.freeBlocks) (list : g.list = h.list)
    (next : g.nextSerial = h.nextSerial) (configs : g.configs = h.configs) (accounts : g.accounts = h.accounts) :
    g = h := by
  cases g
  cases h
  congr

/-- The removal of the selected descriptors, its accounts read class by class (`HoldStore.remove_account`). -/
theorem HoldStore.remove_eq (h : HoldStore) (sel : Descriptor → Bool) (why : Leave) :
    h.remove sel why =
      { h with
        list := h.list.filter fun d => !sel d
        freeBlocks := h.freeBlocks + ((h.list.filter sel).map Descriptor.blocks).sum
        accounts := (h.remove sel why).accounts } := by
  obtain ⟨list, next, configs, free⟩ := HoldStore.remove_parts h sel why
  exact HoldStore.eq_of_parts free list next configs rfl

theorem Account.leaves_none (a : Account) (why : Leave) : a.leaves why 0 0 = a := by
  cases why <;> simp [Account.leaves]

/-- A removal from one class alone changes that class's account alone. -/
theorem HoldStore.remove_accounts_of_class {h : HoldStore} {sel : Descriptor → Bool} {c : HoldClass} (why : Leave)
    (one : ∀ d, sel d = true → d.cls = c) :
    (h.remove sel why).accounts = h.accounts.set c ((h.accounts.get c).leaves why (h.list.filter sel).length
      ((h.list.filter sel).map Descriptor.blocks).sum) := by
  refine Accounts.ext_get fun c' => ?_
  rw [HoldStore.remove_account, Accounts.get_set]
  by_cases same : c' = c
  · subst same
    have all : (h.list.filter sel).filter (fun d => decide (d.cls = c')) = h.list.filter sel :=
      List.filter_eq_self.2 fun d hd => decide_eq_true (one d (List.mem_filter.1 hd).2)
    rw [all, if_pos rfl]
  · have none : (h.list.filter sel).filter (fun d => decide (d.cls = c')) = [] :=
      List.filter_eq_nil_iff.2 fun d hd other =>
        same ((of_decide_eq_true other).symm.trans (one d (List.mem_filter.1 hd).2))
    rw [none, if_neg same]
    exact Account.leaves_none _ _

/-! ## CLASS_WRITE (R67, R68) -/

theorem Policy.ofCode_code (p : Policy) : Policy.ofCode p.code = some p := by cases p <;> rfl

theorem Policy.ofCode_none {x : Byte} (unknown : 3 ≤ x.toNat) : Policy.ofCode x = none := by
  have other : ∀ n, n < 3 → x ≠ BitVec.ofNat 8 n := by
    rintro n small rfl
    rw [BitVec.toNat_ofNat] at unknown
    omega
  exact (if_neg (other 0 (by omega))).trans ((if_neg (other 1 (by omega))).trans (if_neg (other 2 (by omega))))

theorem ClassConfig.read_none {quota lifetime : Nat} {policy : Byte} (bad : 384 < quota ∨ 3 ≤ policy.toNat) :
    ClassConfig.read quota lifetime policy = none := by
  rw [ClassConfig.read]
  split
  · rw [Policy.ofCode_none (by omega), Option.map_none]
  · rfl

theorem ClassConfig.read_code {quota lifetime : Nat} (p : Policy) (bounded : quota ≤ 384) :
    ClassConfig.read quota lifetime p.code = some { quota := quota, lifetime := lifetime, policy := p } := by
  rw [ClassConfig.read, if_pos bounded, Policy.ofCode_code, Option.map_some]

/-- A byte below 4 is the code of a class other than B. -/
theorem HoldClass.exists_code {x : Byte} (small : x.toNat ≤ 3) : ∃ c : HoldClass, c ≠ .b ∧ x = c.code := by
  have spelled : ∀ n, n ≤ 3 → ∃ c : HoldClass, c ≠ .b ∧ BitVec.ofNat 8 n = c.code := by
    intro n _
    match n with
    | 0 => exact ⟨.c0, by decide, rfl⟩
    | 1 => exact ⟨.c1, by decide, rfl⟩
    | 2 => exact ⟨.c2, by decide, rfl⟩
    | 3 => exact ⟨.c3, by decide, rfl⟩
  simpa using spelled x.toNat small

/-- The parameters of a CLASS_WRITE. -/
def classWriteParams (cls : Byte) (quota lifetime : Word16) (policy : Byte) : List Byte :=
  [cls] ++ be16 quota ++ be16 lifetime ++ [policy]

theorem natAt_classWriteParams (cls : Byte) (quota lifetime : Word16) (policy : Byte) :
    natAt (classWriteParams cls quota lifetime policy) 1 2 = quota.toNat ∧
      natAt (classWriteParams cls quota lifetime policy) 3 2 = lifetime.toNat :=
  ⟨natAt_be16 quota (be16 lifetime ++ [policy]), natAt_be16 lifetime [policy]⟩

section
variable (u : State) {cls : Byte} {quota lifetime : Word16} {policy : Byte}

/-- Class B has no configuration to write, and no class has a code above 4. -/
theorem ownClassWrite_badIndex (bad : 4 ≤ cls.toNat) :
    ownClassWrite (classWriteParams cls quota lifetime policy) u = .refuse u .badIndex := by
  have first : byteAt (classWriteParams cls quota lifetime policy) 0 = cls := rfl
  rcases Nat.eq_or_lt_of_le bad with four | more
  · have code : cls = HoldClass.b.code := BitVec.eq_of_toNat_eq four.symm
    have backlog : HoldClass.ofCode cls = some .b := by rw [code, HoldClass.ofCode_code]
    simp only [ownClassWrite, first, backlog]
  · simp only [ownClassWrite, first, HoldClass.ofCode_none (show 5 ≤ cls.toNat from more)]

theorem ownClassWrite_badValue {c : HoldClass} (written : c ≠ .b) (code : cls = c.code)
    (bad : 384 < quota.toNat ∨ 3 ≤ policy.toNat) :
    ownClassWrite (classWriteParams cls quota lifetime policy) u = .refuse u .badValue := by
  have first : byteAt (classWriteParams cls quota lifetime policy) 0 = cls := rfl
  have last : byteAt (classWriteParams cls quota lifetime policy) 5 = policy := rfl
  obtain ⟨q, l⟩ := natAt_classWriteParams cls quota lifetime policy
  simp only [ownClassWrite, first, last, q, l, ClassConfig.read_none bad]
  rw [code, HoldClass.ofCode_code]
  cases c
  case b => exact absurd rfl written
  all_goals rfl

theorem ownClassWrite_ok {c : HoldClass} {p : Policy} (written : c ≠ .b) (code : cls = c.code)
    (bounded : quota.toNat ≤ 384) (policyCode : policy = p.code) :
    ownClassWrite (classWriteParams cls quota lifetime policy) u =
      .ok (u.setHold
        (u.hold.writeClass c { quota := quota.toNat, lifetime := lifetime.toNat, policy := p } u.time)) [] := by
  have first : byteAt (classWriteParams cls quota lifetime policy) 0 = cls := rfl
  have last : byteAt (classWriteParams cls quota lifetime policy) 5 = policy := rfl
  obtain ⟨q, l⟩ := natAt_classWriteParams cls quota lifetime policy
  simp only [ownClassWrite, first, last, q, l]
  rw [code, HoldClass.ofCode_code, policyCode, ClassConfig.read_code p bounded]
  cases c
  case b => exact absurd rfl written
  all_goals rfl

end

/-- The frames that a CLASS_WRITE makes expire (R68). -/
def expiringUnder (c : HoldClass) (lifetime : Nat) (now : Word32) (d : Descriptor) : Bool :=
  decide (d.cls = c) && decide (d.state = .held) && decide (lifetime ≠ 0) &&
    decide (lifetime * 1000 ≤ (now - d.arrival).toNat)

theorem expiringUnder_iff (c : HoldClass) (lifetime : Nat) (now : Word32) (d : Descriptor) :
    expiringUnder c lifetime now d = true ↔
      d.cls = c ∧ d.state = .held ∧ lifetime ≠ 0 ∧ lifetime * 1000 ≤ (now - d.arrival).toNat := by
  simp only [expiringUnder, Bool.and_eq_true, decide_eq_true_eq, and_assoc]

/-- The store after a CLASS_WRITE. -/
theorem HoldStore.writeClass_eq (h : HoldStore) {c : HoldClass} (k : ClassConfig) (now : Word32) (written : c ≠ .b) :
    h.writeClass c k now =
      { h with
        configs := h.configs.set c k
        list := h.list.filter fun d => !expiringUnder c k.lifetime now d
        freeBlocks := h.freeBlocks + ((h.list.filter (expiringUnder c k.lifetime now)).map Descriptor.blocks).sum
        accounts := h.accounts.set c ((h.accounts.get c).leaves .expired
          (h.list.filter (expiringUnder c k.lifetime now)).length
          ((h.list.filter (expiringUnder c k.lifetime now)).map Descriptor.blocks).sum) } := by
  have sel : (fun d : Descriptor => d.cls == c && d.expires (h.configs.set c k) now) =
      expiringUnder c k.lifetime now := by
    funext d
    rw [Bool.eq_iff_iff, expiringUnder_iff, Bool.and_eq_true, beq_iff_eq, Descriptor.expires_iff,
      Configs.get_set _ _ _ _ written]
    exact and_congr_right fun same => by rw [if_pos same]
  have one : ∀ d, expiringUnder c k.lifetime now d = true → d.cls = c := fun d hd =>
    ((expiringUnder_iff c k.lifetime now d).1 hd).1
  rw [HoldStore.writeClass]
  dsimp only
  rw [sel, HoldStore.remove_eq, HoldStore.remove_accounts_of_class .expired one]

/-- Settles O27: `ownClassWrite` by its checks, and the store it leaves (`HoldStore.writeClass_eq`). -/
theorem classWriteReplacesAndExpires : Obligations.ClassWriteReplacesAndExpires := by
  intro s h b cls quota lifetime policy hs hx
  have row : (Instr.classWrite h cls quota lifetime policy).asCommand =
    some (h, .classWrite, classWriteParams cls quota lifetime policy) := rfl
  refine ⟨fun bad => ?_, fun small bad => ?_, fun c p written code bounded policyCode => ?_⟩
  · exact exec_executed row hs hx rfl (by decide) rfl (ownClassWrite_badIndex _ bad)
  · obtain ⟨c, written, code⟩ := HoldClass.exists_code small
    exact exec_executed row hs hx rfl (by decide) rfl (ownClassWrite_badValue _ written code bad)
  · have own := ownClassWrite_ok (lifetime := lifetime) (s.heard .line) written code bounded policyCode
    have held : ∀ d ∈ s.hold.list, expiringUnder c lifetime.toNat s.time d = true → d.isHeld = true := fun d _ hd =>
      beq_iff_eq.2 ((expiringUnder_iff c lifetime.toNat s.time d).1 hd).2.1
    rw [HoldStore.writeClass_eq _ _ _ written] at own
    exact exec_owned_hold row hs hx rfl (by decide) rfl own (expiringUnder c lifetime.toNat s.time) held rfl

/-! ## HOLD_PURGE (R65, R66) -/

/-- The parameters of a HOLD_PURGE. -/
def holdPurgeParams (selection cls : Byte) (serial : Word16) : List Byte := [selection, cls] ++ be16 serial

theorem word16At_holdPurgeParams (selection cls : Byte) (serial : Word16) :
    word16At (holdPurgeParams selection cls serial) 2 = serial := by
  show BitVec.ofNat 16 (natAt (be16 serial) 0 2) = serial
  rw [natAt_be16_nil, BitVec.ofNat_toNat, BitVec.setWidth_eq]

section
variable {s : State} {h : CmdHeader} {b : Binding} {selection cls : Byte} {serial : Word16}

/-- A purge of the selected HELD descriptors, with its response. -/
theorem exec_holdPurge_selects (selected : Descriptor → Bool) (hs : s.Settled) (hx : s.Executes h b)
    (own : ownHoldPurge (holdPurgeParams selection cls serial) (s.heard .line) = (s.heard .line).purge selected) :
    let gone := s.hold.list.filter fun d => decide (d.state = .held) && selected d
    let goneOf := fun c : HoldClass => gone.filter fun d => decide (d.cls = c)
    ∃ accounts : Accounts,
      (∀ c : HoldClass, accounts.get c =
        { s.hold.accounts.get c with
          used := (s.hold.accounts.get c).used - ((goneOf c).map fun d => blocksFor d.frame.length).sum
          held := (s.hold.accounts.get c).held - (goneOf c).length
          purged := (s.hold.accounts.get c).purged + BitVec.ofNat 32 (goneOf c).length }) ∧
      exec (.holdPurge h selection cls serial) s = .next
        ((s.executed h .holdPurge b .ok [byteOf gone.length]).setHold { s.hold with
          list := s.hold.list.filter fun d => !(decide (d.state = .held) && selected d)
          freeBlocks := s.hold.freeBlocks + (gone.map fun d => blocksFor d.frame.length).sum
          accounts := accounts }).settleReleaseEnd.settleOffer := by
  intro gone goneOf
  have row : (Instr.holdPurge h selection cls serial).asCommand =
    some (h, .holdPurge, holdPurgeParams selection cls serial) := rfl
  let held : Descriptor → Bool := fun d => decide (d.state = .held) && selected d
  have holds : ∀ d ∈ s.hold.list, held d = true → d.isHeld = true := fun d _ hd =>
    (Bool.and_eq_true_iff.1 hd).1
  refine ⟨(s.hold.remove held .purged).accounts, HoldStore.remove_account s.hold held .purged, ?_⟩
  have purged : ownHoldPurge (holdPurgeParams selection cls serial) (s.heard .line) =
      .ok ((s.heard .line).setHold { s.hold with
        list := s.hold.list.filter fun d => !held d
        freeBlocks := s.hold.freeBlocks + (gone.map fun d => blocksFor d.frame.length).sum
        accounts := (s.hold.remove held .purged).accounts }) [byteOf gone.length] := by
    rw [own]
    exact congrArg (fun H => Own.ok ((s.heard .line).setHold H) [byteOf gone.length])
      (HoldStore.remove_eq s.hold held .purged)
  exact exec_owned_hold row hs hx rfl (by decide) rfl purged held holds rfl

variable (u : State)

theorem ownHoldPurge_all (all : selection = 0) :
    ownHoldPurge (holdPurgeParams selection cls serial) u = u.purge fun _ => true := by
  subst all
  rfl

theorem ownHoldPurge_class {c : HoldClass} (byClass : selection = 1) (code : cls = c.code) :
    ownHoldPurge (holdPurgeParams selection cls serial) u = u.purge fun d => decide (d.cls = c) := by
  have first : byteAt (holdPurgeParams selection cls serial) 0 = selection := rfl
  have second : byteAt (holdPurgeParams selection cls serial) 1 = cls := rfl
  have known : HoldClass.ofCode cls = some c := by rw [code, HoldClass.ofCode_code]
  simp only [ownHoldPurge, first, second, known]
  subst byClass
  rfl

theorem ownHoldPurge_badIndex (byClass : selection = 1) (unknown : 5 ≤ cls.toNat) :
    ownHoldPurge (holdPurgeParams selection cls serial) u = .refuse u .badIndex := by
  have first : byteAt (holdPurgeParams selection cls serial) 0 = selection := rfl
  have second : byteAt (holdPurgeParams selection cls serial) 1 = cls := rfl
  simp only [ownHoldPurge, first, second, HoldClass.ofCode_none unknown]
  subst byClass
  rfl

theorem ownHoldPurge_upTo (byOrder : selection = 2) :
    ownHoldPurge (holdPurgeParams selection cls serial) u = u.purge (upTo serial u.hold.list) := by
  subst byOrder
  show u.purge (upTo (word16At (holdPurgeParams 2 cls serial) 2) u.hold.list) = _
  rw [word16At_holdPurgeParams]

theorem ownHoldPurge_badValue (unknown : 3 ≤ selection.toNat) :
    ownHoldPurge (holdPurgeParams selection cls serial) u = .refuse u .badValue :=
  if_pos (show 2 < (byteAt (holdPurgeParams selection cls serial) 0).toNat from unknown)

end

/-- UP_TO selects, of a list with a head, what lies no further beyond it than the serial (R66). -/
theorem upTo_near {head : Descriptor} {rest : List Descriptor} {serial : Word16}
    (near : (serial - head.serial).toNat ≤ 32767) :
    upTo serial (head :: rest) = fun d => decide ((d.serial - head.serial).toNat ≤ (serial - head.serial).toNat) := by
  funext d
  rw [upTo, serialFrom, decide_eq_true near, Bool.true_and]
  rfl

theorem upTo_far {head : Descriptor} {rest : List Descriptor} {serial : Word16}
    (far : 32768 ≤ (serial - head.serial).toNat) : upTo serial (head :: rest) = fun _ => false := by
  funext d
  have no : ¬ (serial - head.serial).toNat ≤ 32767 := by omega
  simp only [upTo, serialFrom, no, decide_false, Bool.false_and]

/-- Settles O28: what each selection selects, and the one removal for them all (`exec_holdPurge_selects`). -/
theorem purgeRemovesTheSelectedHeld : Obligations.PurgeRemovesTheSelectedHeld := by
  intro s h b selection cls serial hs hx
  have row : (Instr.holdPurge h selection cls serial).asCommand =
    some (h, .holdPurge, holdPurgeParams selection cls serial) := rfl
  refine ⟨fun all => ?_, fun c byClass code => ?_, fun byClass unknown => ?_, fun head rest byOrder list near => ?_,
    fun head rest byOrder list far => ?_, fun byOrder list => ?_, fun unknown => ?_⟩
  · exact exec_holdPurge_selects _ hs hx (ownHoldPurge_all _ all)
  · exact exec_holdPurge_selects _ hs hx (ownHoldPurge_class _ byClass code)
  · exact exec_executed row hs hx rfl (by decide) rfl (ownHoldPurge_badIndex _ byClass unknown)
  · refine exec_holdPurge_selects _ hs hx ?_
    rw [ownHoldPurge_upTo _ byOrder, ← upTo_near (rest := rest) near, ← list]
    simp
  · refine exec_holdPurge_selects _ hs hx ?_
    rw [ownHoldPurge_upTo _ byOrder, ← upTo_far (rest := rest) far, ← list]
    simp
  · refine exec_holdPurge_selects _ hs hx ?_
    have none : upTo serial [] = fun _ => false := rfl
    rw [ownHoldPurge_upTo _ byOrder, ← none, ← list]
    simp
  · exact exec_executed row hs hx rfl (by decide) rfl (ownHoldPurge_badValue _ unknown)

/-! ## CLASS_READ and HOLD_LIST (R157, R158) -/

/-- The parameters of a HOLD_LIST. -/
def holdListParams (start : Byte) (serial : Word16) : List Byte := [start] ++ be16 serial

theorem word16At_holdListParams (start : Byte) (serial : Word16) :
    word16At (holdListParams start serial) 1 = serial := by
  show BitVec.ofNat 16 (natAt (be16 serial) 0 2) = serial
  rw [natAt_be16_nil, BitVec.ofNat_toNat, BitVec.setWidth_eq]

theorem ownClassRead_ok (u : State) (c : HoldClass) :
    ownClassRead [c.code] u = .ok u ([c.code] ++ (u.hold.configs.get c).bytes ++ (u.hold.accounts.get c).bytes) := by
  cases c <;> rfl

theorem ownClassRead_badIndex (u : State) {cls : Byte} (unknown : 5 ≤ cls.toNat) :
    ownClassRead [cls] u = .refuse u .badIndex := by
  have first : byteAt [cls] 0 = cls := rfl
  simp only [ownClassRead, first, HoldClass.ofCode_none unknown]

/-- The body of HOLD_LIST for the descriptors it found. -/
def holdListBody (found : List Descriptor) (now : Word32) : List Byte :=
  [byteOf (min 24 found.length)] ++ nat16 (found.length - 24) ++
    (found.take 24).flatMap fun d =>
      be16 d.serial ++ [d.cls.code, d.state.code, d.origin.code, 0] ++ nat16 d.frame.length ++ be32 (now - d.arrival)

theorem holdListBody_eq (found : List Descriptor) (now : Word32) :
    [byteOf (found.take 24).length] ++ nat16 (found.length - (found.take 24).length) ++
      ((found.take 24).flatMap fun d => d.summary now) = holdListBody found now := by
  have rest : found.length - min 24 found.length = found.length - 24 := by omega
  rw [List.length_take, rest]
  rfl

section
variable (u : State) {start : Byte} {serial : Word16}

theorem ownHoldList_head (head : start = 0) :
    ownHoldList (holdListParams start serial) u = .ok u (holdListBody u.hold.list u.time) := by
  subst head
  rw [← holdListBody_eq]
  rfl

theorem ownHoldList_from (fromSerial : start = 1) :
    ownHoldList (holdListParams start serial) u = .ok u (holdListBody (listFrom serial u.hold.list) u.time) := by
  subst fromSerial
  have own : ownHoldList (holdListParams 1 serial) u =
      .ok u (holdListBody (listFrom (word16At (holdListParams 1 serial) 1) u.hold.list) u.time) := by
    rw [← holdListBody_eq]
    rfl
  rwa [word16At_holdListParams] at own

theorem ownHoldList_badValue (unknown : 2 ≤ start.toNat) :
    ownHoldList (holdListParams start serial) u = .refuse u .badValue :=
  if_pos (show 1 < (byteAt (holdListParams start serial) 0).toNat from unknown)

end

theorem listFrom_far {head : Descriptor} {rest : List Descriptor} {serial : Word16}
    (far : 32768 ≤ (serial - head.serial).toNat) : listFrom serial (head :: rest) = head :: rest :=
  if_pos far

/-- The list from the first descriptor that lies as far beyond the head as the serial (R158). -/
theorem listFrom_near {head : Descriptor} {rest before after : List Descriptor} {serial : Word16}
    (near : (serial - head.serial).toNat ≤ 32767) (split : head :: rest = before ++ after)
    (short : ∀ d ∈ before, (d.serial - head.serial).toNat < (serial - head.serial).toNat)
    (reached : ∀ d tail, after = d :: tail → (serial - head.serial).toNat ≤ (d.serial - head.serial).toNat) :
    listFrom serial (head :: rest) = after := by
  have notFar : ¬ 32768 ≤ serialFrom head.serial serial := by
    rw [serialFrom]
    omega
  have skipped : ∀ d ∈ before, decide (serialFrom head.serial d.serial < serialFrom head.serial serial) = true :=
    fun d hd => decide_eq_true (short d hd)
  rw [listFrom, if_neg notFar, split, List.dropWhile_append_of_pos skipped]
  cases after with
  | nil => rfl
  | cons d tail =>
    have stop : ¬ serialFrom head.serial d.serial < serialFrom head.serial serial := not_lt.2 (reached d tail rfl)
    simp [stop]

/-- Settles O29: the two reads' bodies, and the codes of R48, R145 and R146. -/
theorem holdStoreReadsAnswer : Obligations.HoldStoreReadsAnswer := by
  refine ⟨fun s h b hs hx => ⟨fun cls c code => ?_, fun cls unknown => ?_, fun start serial => ?_⟩, rfl,
    fun i small => byteOf_toNat (by omega), rfl, rfl, rfl, rfl, rfl⟩
  · subst code
    have row : (Instr.classRead h c.code).asCommand = some (h, .classRead, [c.code]) := rfl
    rw [exec_executed row hs hx rfl (by decide) rfl (ownClassRead_ok (s.heard .line) c)]
    simp [ClassConfig.bytes, Account.bytes, Account.counters]
  · exact exec_executed rfl hs hx rfl (by decide) rfl (ownClassRead_badIndex _ unknown)
  · intro listed
    have row : (Instr.holdList h start serial).asCommand = some (h, .holdList, holdListParams start serial) := rfl
    have found : start = 1 → ∀ l, listFrom serial s.hold.list = l → listed l := by
      rintro fromSerial l rfl
      have own := ownHoldList_from (s.heard .line) (serial := serial) fromSerial
      simp only [State.heard_keeps] at own
      exact exec_executed row hs hx rfl (by decide) rfl own
    refine ⟨fun head => ?_, fun fromSerial none => found fromSerial [] (by rw [none]; rfl),
      fun head rest fromSerial list => ⟨fun far => ?_, fun before after near split short reached => ?_⟩,
      fun unknown => ?_⟩
    · have own := ownHoldList_head (s.heard .line) (serial := serial) head
      simp only [State.heard_keeps] at own
      exact exec_executed row hs hx rfl (by decide) rfl own
    · exact found fromSerial _ (by rw [list, listFrom_far far])
    · exact found fromSerial _ (by rw [list, listFrom_near near (list.symm.trans split) short reached])
    · exact exec_executed row hs hx rfl (by decide) rfl (ownHoldList_badValue _ unknown)

end Sys2Proof.Machine
end

section
/-! The layouts of the profile record and of the rule record, read and written. -/

namespace Sys2Proof.Machine

/-! ## The profile record (R5, R145) -/

/-- A default disposition is read from its code and the index it uses. -/
theorem readDefault_some {a b : Byte} {d : DefaultDisposition} : readDefault a b = some d ↔
    (match d with
      | .discard => a = 0
      | .hold c => a = 1 ∧ b.toNat = c.val) := by
  unfold readDefault
  split
  · next zero => subst zero; cases d <;> simp
  · next other =>
    have other : ¬ a = 0#8 := other
    split
    · next one => subst one; cases d <;> simp [readFin_some]
    · next more =>
      have more : ¬ a = 1#8 := more
      cases d <;> simp [other, more]

/-- A wake mode is read from its code, and a pulse from a width other than 0. -/
theorem readWakeMode_some {a b : Byte} {m : WakeMode} : readWakeMode a b = some m ↔
    (match m with
      | .pulse w => a = 0 ∧ b.toNat = w
      | .level => a = 1) ∧ ∀ w, m = .pulse w → 1 ≤ w ∧ w ≤ 255 := by
  have small := b.isLt
  unfold readWakeMode
  split
  · next zero =>
    subst zero
    cases m with
    | level => split <;> simp
    | pulse w =>
      split
      · next none =>
        subst none
        simp
        rintro rfl
        omega
      · next width =>
        have positive : b.toNat ≠ 0 := fun h => width (BitVec.eq_of_toNat_eq h)
        simp
        omega
  · next other =>
    have other : ¬ a = 0#8 := other
    split
    · next one => subst one; cases m <;> simp
    · next more =>
      have more : ¬ a = 1#8 := more
      cases m <;> simp [other, more]

/-- A record is read exactly where its fields are in range and stand in their places. -/
theorem Profile.read_iff (l : List Byte) (p : Profile) : Profile.read l = some p ↔
    p.InRange ∧
    byteAt l 1 = p.sets.setWidth 8 ∧
    (match p.defaultDisposition with
      | .discard => byteAt l 2 = 0
      | .hold c => byteAt l 2 = 1 ∧ (byteAt l 3).toNat = c.val) ∧
    (match p.wakeMode with
      | .pulse w => byteAt l 4 = 0 ∧ (byteAt l 5).toNat = w
      | .level => byteAt l 4 = 1) ∧
    (byteAt l 6).toNat = p.timeout ∧ (byteAt l 7).toNat = p.retries ∧ natAt l 8 2 = p.releaseDelay ∧
    byteAt l 10 = boolByte p.wakeOnLink := by
  simp only [Profile.read, Option.bind_eq_bind, Option.bind_eq_some_iff, readSets_some, readDefault_some,
    readWakeMode_some, readNat_some, readBool_some, natAt_byte, Option.some.injEq, Bool.and_eq_true, decide_eq_true_eq]
  constructor
  · rintro ⟨sets, hsets, d, hd, m, ⟨hm, pulse⟩, timeout, ⟨range, htimeout⟩, retries, ⟨bound, hretries⟩, delay,
      ⟨most, hdelay⟩, link, hlink, rfl⟩
    subst htimeout hretries hdelay
    exact ⟨⟨pulse, range, bound, most⟩, hsets, hd, hm, rfl, rfl, rfl, hlink⟩
  · rintro ⟨⟨pulse, range, bound, most⟩, hsets, hd, hm, htimeout, hretries, hdelay, hlink⟩
    exact ⟨p.sets, hsets, p.defaultDisposition, hd, p.wakeMode, ⟨hm, pulse⟩, p.timeout, ⟨by rwa [htimeout], htimeout⟩,
      p.retries, ⟨by rwa [hretries], hretries⟩, p.releaseDelay, ⟨by rwa [hdelay], hdelay⟩, p.wakeOnLink, hlink, rfl⟩

theorem DefaultDisposition.bytes_two (d : DefaultDisposition) : ∃ a b, d.bytes = [a, b] := by
  cases d <;> exact ⟨_, _, rfl⟩

theorem WakeMode.bytes_two (m : WakeMode) : ∃ a b, m.bytes = [a, b] := by
  cases m <;> exact ⟨_, _, rfl⟩

/-- Where each field of a profile record stands in its 12 bytes. -/
theorem profileBytes_fields (p : Profile) :
    (profileBytes (some p)).length = 12 ∧ byteAt (profileBytes (some p)) 0 = 1 ∧
    byteAt (profileBytes (some p)) 1 = p.sets.setWidth 8 ∧
    byteAt (profileBytes (some p)) 2 = byteAt p.defaultDisposition.bytes 0 ∧
    byteAt (profileBytes (some p)) 3 = byteAt p.defaultDisposition.bytes 1 ∧
    byteAt (profileBytes (some p)) 4 = byteAt p.wakeMode.bytes 0 ∧
    byteAt (profileBytes (some p)) 5 = byteAt p.wakeMode.bytes 1 ∧
    byteAt (profileBytes (some p)) 6 = byteOf p.timeout ∧ byteAt (profileBytes (some p)) 7 = byteOf p.retries ∧
    natAt (profileBytes (some p)) 8 2 = beNat (nat16 p.releaseDelay) ∧
    byteAt (profileBytes (some p)) 10 = boolByte p.wakeOnLink ∧ byteAt (profileBytes (some p)) 11 = 0 := by
  obtain ⟨a, b, hd⟩ := p.defaultDisposition.bytes_two
  obtain ⟨c, d, hm⟩ := p.wakeMode.bytes_two
  simp only [profileBytes, hd, hm]
  exact ⟨rfl, rfl, rfl, rfl, rfl, rfl, rfl, rfl, rfl, rfl, rfl, rfl⟩

/-- Settles O35: `Profile.read_iff`, and the same read backwards on the bytes of PROFILE_READ. -/
theorem profileRecordIsReadByItsLayout : Obligations.ProfileRecordIsReadByItsLayout := by
  refine ⟨Profile.read_iff, fun p range => ?_⟩
  obtain ⟨length, defined, sets, kind, cls, mode, width, timeout, retries, delay, link, last⟩ := profileBytes_fields p
  obtain ⟨pulse, ⟨low, high⟩, few, short⟩ := range
  refine ⟨(Profile.read_iff _ p).2 ⟨⟨pulse, ⟨low, high⟩, few, short⟩, sets, ?_, ?_, ?_, ?_, ?_, link⟩, length, defined,
    fun discard => ?_, fun level => ?_, last⟩
  · rw [kind, cls]
    cases p.defaultDisposition with
    | discard => rfl
    | hold c => exact ⟨rfl, byteOf_toNat (by omega)⟩
  · rw [mode, width]
    cases form : p.wakeMode with
    | level => rfl
    | pulse w => exact ⟨rfl, byteOf_toNat (by have := pulse w form; omega)⟩
  · rw [timeout, byteOf_toNat (by omega)]
  · rw [retries, byteOf_toNat (by omega)]
  · rw [delay, beNat_nat16 (by omega)]
  · rw [cls, discard]
    rfl
  · rw [width, level]
    rfl

/-! ## The rule record (R25, R26, R144) -/

/-- The bit of window byte `k` in the mask bytes of a record (R144). -/
def maskBit (l : List Byte) (k : Nat) : Bool := (byteAt l (8 + k / 8)).getLsbD (7 - k % 8)

/-- The 64 flags of a record's mask bytes. -/
def recordFlags (l : List Byte) : List Bool := maskFlags ((l.drop 8).take 8) 64

theorem recordFlags_length (l : List Byte) : (recordFlags l).length = 64 := by
  simp [recordFlags, maskFlags]

theorem recordFlags_getElem? (l : List Byte) {k : Nat} (inside : k < 64) : (recordFlags l)[k]? = some (maskBit l k) :=
  maskFlags_get l 64 k inside inside

/-- A mask is read from the flags of its length, the others being clear, exactly where the 64 bits are its flags. -/
theorem recordFlags_eq_iff {l : List Byte} {n : Nat} {mask : List Bool} (bounded : n ≤ 64) :
    ((recordFlags l).drop n).any id = false ∧ (recordFlags l).take n = mask ↔
      n = mask.length ∧ ∀ k, k < 64 → maskBit l k = mask.getD k false := by
  have length := recordFlags_length l
  constructor
  · rintro ⟨clear, rfl⟩
    have size : ((recordFlags l).take n).length = n := by rw [List.length_take, length]; omega
    refine ⟨size.symm, fun k inside => ?_⟩
    have flag := recordFlags_getElem? l inside
    by_cases before : k < n
    · rw [List.getD_eq_getElem?_getD, List.getElem?_take_of_lt before, flag, Option.getD_some]
    · rw [List.getD_eq_getElem?_getD, List.getElem?_eq_none (by omega), Option.getD_none]
      have listed : maskBit l k ∈ (recordFlags l).drop n :=
        List.mem_iff_getElem?.2 ⟨k - n, by rw [List.getElem?_drop, show n + (k - n) = k by omega, flag]⟩
      exact Bool.eq_false_iff.2 (List.any_eq_false.1 clear _ listed)
  · rintro ⟨rfl, bits⟩
    constructor
    · refine List.any_eq_false.2 fun x listed => ?_
      obtain ⟨j, found⟩ := List.mem_iff_getElem?.1 listed
      rw [List.getElem?_drop] at found
      obtain ⟨inside, -⟩ := List.getElem?_eq_some_iff.1 found
      rw [length] at inside
      rw [recordFlags_getElem? l inside, bits _ inside] at found
      simp at found
      simp [← found]
    · refine List.ext_getElem? fun k => ?_
      by_cases before : k < mask.length
      · rw [List.getElem?_take_of_lt before, recordFlags_getElem? l (by omega), bits k (by omega),
          List.getD_eq_getElem _ _ before, List.getElem?_eq_getElem before]
      · rw [List.getElem?_eq_none (by rw [List.length_take]; omega), List.getElem?_eq_none (by omega)]

/-- A rule record is read exactly where it is one that R25 and R26 allow and its fields stand in their places. -/
theorem RuleRecord.read_iff (l : List Byte) (r : RuleRecord) : RuleRecord.read l = some r ↔
    r.Consistent ∧
    byteAt l 0 = r.sets.setWidth 8 ∧ byteAt l 1 = r.guard.code ∧
    natAt l 2 2 = r.minLength ∧ natAt l 4 2 = r.windowOffset ∧ (byteAt l 6).toNat = r.mask.length ∧
    (match r.test with
      | .signature e => byteAt l 7 = 0 ∧ word16At l 20 = e
      | .exactly bytes => byteAt l 7 = 1 ∧ l.drop 23 = bytes) ∧
    (∀ k, k < 64 → maskBit l k = r.mask.getD k false) ∧
    (match r.disposition with
      | .discard => byteAt l 16 = 0
      | .hold c => byteAt l 16 = 1 ∧ (byteAt l 17).toNat = c.val
      | .answer t => byteAt l 16 = 2 ∧ (byteAt l 18).toNat = t.val
      | .answerHold t c => byteAt l 16 = 3 ∧ (byteAt l 18).toNat = t.val ∧ (byteAt l 17).toNat = c.val) ∧
    byteAt l 19 = boolByte r.wake := by
  have refold : maskFlags ((l.drop 8).take 8) 64 = recordFlags l := rfl
  simp only [RuleRecord.read, refold, Option.bind_eq_bind, Option.bind_eq_some_iff, readSets_some,
    Guard.ofCode_some, readNat_some, readTest_some, readDisposition_some, readBool_some, recordOrNone_some, natAt_byte,
    Bool.and_eq_true, Bool.or_eq_true, Bool.or_eq_false_iff, decide_eq_true_eq, beq_iff_eq, beq_eq_false_iff_ne]
  constructor
  · rintro ⟨sets, hsets, guard, hguard, minLength, ⟨least, hmin⟩, offset, ⟨hoffset, hat⟩, length,
      ⟨⟨⟨one, most⟩, window⟩, hlength⟩, test, ⟨htest, exactly⟩, disposition, hdisposition, wake, hwake,
      ⟨⟨nonzero, clear⟩, selected⟩, rfl⟩
    subst hmin hat hlength
    obtain ⟨size, bits⟩ := (recordFlags_eq_iff most).1 ⟨clear, rfl⟩
    rw [size] at one most window
    exact ⟨⟨nonzero, least, hoffset, ⟨one, most⟩, window, Nat.one_le_iff_ne_zero.2 selected, exactly⟩, hsets, hguard,
      rfl, rfl, size, htest, bits, hdisposition, hwake⟩
  · rintro ⟨⟨nonzero, least, hoffset, ⟨one, most⟩, window, selected, exactly⟩, hsets, hguard, hmin, hat, hlength, htest,
      bits, hdisposition, hwake⟩
    obtain ⟨clear, mask⟩ := (recordFlags_eq_iff (l := l) (mask := r.mask) most).2 ⟨rfl, bits⟩
    refine ⟨r.sets, hsets, r.guard, hguard, r.minLength, ⟨by rwa [hmin], hmin⟩, r.windowOffset, ⟨by rwa [hat], hat⟩,
      r.mask.length, ⟨⟨⟨by rwa [hlength], by rwa [hlength]⟩, by rwa [hlength]⟩, hlength⟩, r.test, ⟨htest, ?_⟩,
      r.disposition, hdisposition, r.wake, hwake, ⟨⟨nonzero, clear⟩, ?_⟩, ?_⟩
    · rwa [mask]
    · rw [mask]
      omega
    · rw [mask]

/-- Where each field of a rule record stands in its bytes. -/
theorem RuleRecord.bytes_fields (r : RuleRecord) :
    byteAt r.bytes 0 = r.sets.setWidth 8 ∧ byteAt r.bytes 1 = r.guard.code ∧
    natAt r.bytes 2 2 = beNat (nat16 r.minLength) ∧ natAt r.bytes 4 2 = beNat (nat16 r.windowOffset) ∧
    byteAt r.bytes 6 = byteOf r.mask.length ∧ byteAt r.bytes 7 = r.test.code ∧
    byteAt r.bytes 16 = byteAt r.disposition.bytes 0 ∧ byteAt r.bytes 17 = byteAt r.disposition.bytes 1 ∧
    byteAt r.bytes 18 = byteAt r.disposition.bytes 2 ∧ byteAt r.bytes 19 = boolByte r.wake ∧
    natAt r.bytes 20 2 = beNat (be16 r.test.expected) ∧ byteAt r.bytes 22 = byteOf r.test.list.length ∧
    r.bytes.drop 23 = r.test.list := by
  obtain ⟨a, b, c, hd⟩ := r.disposition.bytes_three
  simp only [RuleRecord.bytes, hd]
  exact ⟨rfl, rfl, rfl, rfl, rfl, rfl, rfl, rfl, rfl, rfl, rfl, rfl, rfl⟩

theorem RuleRecord.bytes_length (r : RuleRecord) : r.bytes.length = 23 + r.test.list.length := by
  obtain ⟨a, b, c, hd⟩ := r.disposition.bytes_three
  simp [RuleRecord.bytes, hd, maskBytes]
  omega

/-- The mask bytes of a record. -/
theorem RuleRecord.byteAt_mask (r : RuleRecord) {i : Nat} (inside : i < 8) :
    byteAt r.bytes (8 + i) = maskByte r.mask i := by
  have bytes : (r.bytes.drop 8).take 8 = maskBytes r.mask := by
    obtain ⟨a, b, c, hd⟩ := r.disposition.bytes_three
    simp only [RuleRecord.bytes, hd]
    rfl
  rw [← byteAt_drop, ← byteAt_take inside, bytes, byteAt_eq, maskBytes, List.getElem?_map, List.getElem?_range inside,
    Option.map_some, Option.getD_some]

theorem RuleRecord.maskBit_bytes (r : RuleRecord) {k : Nat} (inside : k < 64) :
    maskBit r.bytes k = r.mask.getD k false := by
  rw [maskBit, r.byteAt_mask (by omega), maskByte_bit _ _ _ (by omega), show 8 * (k / 8) + k % 8 = k by omega]

/-- What RULE_READ answers is read back as the record (R144). -/
theorem RuleRecord.read_bytes {r : RuleRecord} (sound : r.Consistent) : RuleRecord.read r.bytes = some r := by
  obtain ⟨sets, guard, minLength, offset, length, test, kind, cls, template, wake, expected, -, list⟩ := r.bytes_fields
  have least := sound.minLength
  have most := sound.windowOffset
  have size := sound.windowLength
  refine (RuleRecord.read_iff _ r).2 ⟨sound, sets, guard, ?_, ?_, ?_, ?_, fun k => r.maskBit_bytes, ?_, wake⟩
  · rw [minLength, beNat_nat16 (by omega)]
  · rw [offset, beNat_nat16 (by omega)]
  · rw [length, byteOf_toNat (by omega)]
  · rw [test, word16At, expected, list]
    cases r.test with
    | signature e => exact ⟨rfl, by simp [RuleTest.expected]⟩
    | exactly bytes => exact ⟨rfl, rfl⟩
  · rw [kind, cls, template]
    cases r.disposition with
    | discard => rfl
    | hold c => exact ⟨rfl, byteOf_toNat (by omega)⟩
    | answer t => exact ⟨rfl, byteOf_toNat (by omega)⟩
    | answerHold t c => exact ⟨rfl, byteOf_toNat (by omega), byteOf_toNat (by omega)⟩

/-- Settles O31: `RuleRecord.read_iff`, and the same read backwards on the bytes of RULE_READ. -/
theorem ruleRecordIsReadBitByBit : Obligations.RuleRecordIsReadBitByBit := by
  refine ⟨fun l r => ?_, fun r sound => ⟨RuleRecord.read_bytes sound, r.bytes_length, ?_, ?_, fun l exactly => ?_⟩,
    fun e => rfl, fun l => rfl⟩
  · rw [RuleRecord.read_iff]
    cases r.guard <;> rfl
  · obtain ⟨-, -, -, -, -, -, -, -, -, -, -, count, -⟩ := r.bytes_fields
    exact count
  · obtain ⟨-, -, -, -, -, -, -, cls, template, -⟩ := r.bytes_fields
    cases form : r.disposition with
    | discard => exact ⟨by rw [cls, form]; rfl, by rw [template, form]; rfl⟩
    | hold c => exact template.trans (by rw [form]; rfl)
    | answer t => exact cls.trans (by rw [form]; rfl)
    | answerHold t c => trivial
  · obtain ⟨-, -, -, -, -, -, -, -, -, -, expected, -⟩ := r.bytes_fields
    rw [word16At, expected, exactly, beNat_be16, BitVec.ofNat_toNat, BitVec.setWidth_eq]
    rfl

end Sys2Proof.Machine
end

section
/-! The layout of a template, read and written (R101, R102, R146). -/

namespace Sys2Proof.Machine

/-! ## One substitution -/

/-- Where a source stands in the last four of a substitution's six bytes (R146). -/
def Source.standsIn (r : List Byte) : Source → Prop
  | .triggerSource => byteAt r 2 = 0
  | .stationAddress => byteAt r 2 = 1
  | .unitAddress => byteAt r 2 = 2
  | .triggerBytes off n => byteAt r 2 = 3 ∧ (byteAt r 3).toNat = n ∧ natAt r 4 2 = off

/-- The ranges of a TRIGGER_BYTES (R101). -/
def Source.inRange (x : Source) : Prop := ∀ off n, x = .triggerBytes off n → off ≤ 1521 ∧ 1 ≤ n ∧ n ≤ 16

/-- A substitution is read exactly where its target and its source stand in their places and a trigger's bytes are in
range. -/
theorem Substitution.read_iff (r : List Byte) (x : Substitution) : Substitution.read r = some x ↔
    natAt r 0 2 = x.target ∧ x.source.standsIn r ∧ x.source.inRange := by
  obtain ⟨target, source⟩ := x
  simp only [Substitution.read, Option.map_eq_some_iff, Substitution.mk.injEq, natAt_byte]
  constructor
  · rintro ⟨y, read, same, rfl⟩
    refine ⟨same, ?_⟩
    split at read
    · next kind => cases read; exact ⟨kind, fun _ _ h => by cases h⟩
    split at read
    · next kind => cases read; exact ⟨kind, fun _ _ h => by cases h⟩
    split at read
    · next kind => cases read; exact ⟨kind, fun _ _ h => by cases h⟩
    split at read
    · next kind =>
      split at read
      · next range => cases read; exact ⟨⟨kind, rfl, rfl⟩, fun _ _ h => by cases h; exact range⟩
      · cases read
    · cases read
  · rintro ⟨same, stands, range⟩
    refine ⟨source, ?_, same, rfl⟩
    cases source with
    | triggerSource =>
      have kind : byteAt r 2 = 0 := stands
      rw [kind]
      rfl
    | stationAddress =>
      have kind : byteAt r 2 = 1 := stands
      rw [kind]
      rfl
    | unitAddress =>
      have kind : byteAt r 2 = 2 := stands
      rw [kind]
      rfl
    | triggerBytes off n =>
      obtain ⟨kind, length, offset⟩ := stands
      have bounds := range off n rfl
      rw [← length, ← offset] at bounds
      rw [if_neg (by rw [kind]; decide), if_neg (by rw [kind]; decide), if_neg (by rw [kind]; decide), if_pos kind,
        if_pos bounds, length, offset]

/-- A list of substitutions is read exactly where each is read from its six bytes. -/
theorem readSubstitutions_iff : ∀ (k : Nat) (r : List Byte) (subs : List Substitution),
    readSubstitutions k r = some subs ↔ subs.length = k ∧
      ∀ (i : Nat) (x : Substitution), subs[i]? = some x → Substitution.read ((r.drop (6 * i)).take 6) = some x := by
  intro k
  induction k with
  | zero =>
    intro r subs
    cases subs with
    | nil => simp [readSubstitutions]
    | cons x rest => simp [readSubstitutions]
  | succ k ih =>
    intro r subs
    simp only [readSubstitutions, Option.bind_eq_bind, Option.bind_eq_some_iff, ih, Option.some.injEq]
    constructor
    · rintro ⟨x, first, rest, ⟨length, others⟩, rfl⟩
      refine ⟨by simp [length], fun i y found => ?_⟩
      cases i with
      | zero =>
        obtain rfl := Option.some.inj found
        exact first
      | succ i =>
        have read := others i y found
        rwa [List.drop_drop, show 6 + 6 * i = 6 * (i + 1) by omega] at read
    · rintro ⟨length, all⟩
      cases subs with
      | nil => simp at length
      | cons x rest =>
        refine ⟨x, all 0 x rfl, rest, ⟨by simpa using length, fun i y found => ?_⟩, rfl⟩
        rw [List.drop_drop, show 6 + 6 * i = 6 * (i + 1) by omega]
        exact all (i + 1) y found

/-! ## The template -/

/-- What stands in the six bytes of a substitution, seen from the template's bytes. -/
theorem Source.standsIn_window (l : List Byte) (i : Nat) (x : Source) :
    x.standsIn (((l.drop 3).drop (6 * i)).take 6) ↔
      match x with
      | .triggerSource => byteAt l (3 + 6 * i + 2) = 0
      | .stationAddress => byteAt l (3 + 6 * i + 2) = 1
      | .unitAddress => byteAt l (3 + 6 * i + 2) = 2
      | .triggerBytes off n =>
        byteAt l (3 + 6 * i + 2) = 3 ∧ (byteAt l (3 + 6 * i + 3)).toNat = n ∧ natAt l (3 + 6 * i + 4) 2 = off := by
  have byte : ∀ j, j < 6 → byteAt (((l.drop 3).drop (6 * i)).take 6) j = byteAt l (3 + 6 * i + j) := fun j inside => by
    rw [byteAt_take inside, List.drop_drop, byteAt_drop]
  have number : natAt (((l.drop 3).drop (6 * i)).take 6) 4 2 = natAt l (3 + 6 * i + 4) 2 := by
    rw [natAt_take (by omega), List.drop_drop, natAt_drop]
  cases x <;> simp only [Source.standsIn, byte 2 (by omega), byte 3 (by omega), number]

theorem natAt_window (l : List Byte) (i : Nat) :
    natAt (((l.drop 3).drop (6 * i)).take 6) 0 2 = natAt l (3 + 6 * i) 2 := by
  rw [natAt_take (by omega), List.drop_drop, natAt_drop, Nat.add_zero]

/-- A template is read, from bytes whose counts agree with their length, exactly where R101 and R102 allow it and its
parts stand in their places. -/
theorem Template.read_iff {l : List Byte} (t : Template) (few : (byteAt l 2).toNat ≤ 4) (low : 60 ≤ natAt l 0 2)
    (high : natAt l 0 2 ≤ 256) (length : l.length = 3 + 6 * (byteAt l 2).toNat + natAt l 0 2) :
    Template.read l = some t ↔
      t.Fitting ∧ (byteAt l 2).toNat = t.substitutions.length ∧ l.drop (3 + 6 * t.substitutions.length) = t.body ∧
      ∀ (i : Nat) (x : Substitution), t.substitutions[i]? = some x →
        natAt l (3 + 6 * i) 2 = x.target ∧ x.source.standsIn (((l.drop 3).drop (6 * i)).take 6) := by
  have whole : (l.drop (3 + 6 * (byteAt l 2).toNat)).take (natAt l 0 2) = l.drop (3 + 6 * (byteAt l 2).toNat) :=
    List.take_of_length_le (by rw [List.length_drop]; omega)
  have body : (l.drop (3 + 6 * (byteAt l 2).toNat)).length = natAt l 0 2 := by rw [List.length_drop]; omega
  simp only [Template.read, natAt_byte, Option.bind_eq_bind, Option.bind_eq_some_iff, readSubstitutions_iff,
    Substitution.read_iff, natAt_window, whole]
  constructor
  · rintro ⟨subs, ⟨count, each⟩, read⟩
    split at read
    · next fits =>
      cases read
      rw [List.all_eq_true] at fits
      refine ⟨⟨by rw [body]; omega, by rw [count]; exact few, fun x listed => ?_, fun x listed => ?_⟩, count.symm,
        by rw [count], fun i x found => ?_⟩
      · exact of_decide_eq_true (fits x listed)
      · obtain ⟨i, found⟩ := List.mem_iff_getElem?.1 listed
        obtain ⟨-, -, range⟩ := each i x found
        exact range
      · obtain ⟨target, stands, -⟩ := each i x found
        exact ⟨target, stands⟩
    · cases read
  · rintro ⟨fitting, count, rest, each⟩
    refine ⟨t.substitutions, ⟨count.symm, fun i x found => ?_⟩, ?_⟩
    · obtain ⟨target, stands⟩ := each i x found
      exact ⟨target, stands, fitting.trigger x (List.mem_of_getElem? found)⟩
    · rw [count, rest, if_pos]
      exact List.all_eq_true.2 fun x listed => decide_eq_true (fitting.fits x listed)

/-! ## What TEMPLATE_READ answers -/

section
variable (t : Template)

theorem Template.bytes_eq : t.bytes = (nat16 t.body.length ++ [byteOf t.substitutions.length]) ++
    (t.substitutions.flatMap Substitution.bytes ++ t.body) := by
  simp [Template.bytes]

theorem Template.bytes_length : t.bytes.length = 3 + 6 * t.substitutions.length + t.body.length := by
  rw [t.bytes_eq, List.length_append, List.length_append, List.length_append, flat_length]
  simp
  omega

theorem Template.bytes_counts (fitting : t.Fitting) :
    natAt t.bytes 0 2 = t.body.length ∧ (byteAt t.bytes 2).toNat = t.substitutions.length := by
  have size := fitting.body
  have few := fitting.count
  refine ⟨?_, ?_⟩
  · have head : natAt t.bytes 0 2 = beNat (nat16 t.body.length) := by
      rw [t.bytes_eq]
      rfl
    rw [head, beNat_nat16 (by omega)]
  · have third : byteAt t.bytes 2 = byteOf t.substitutions.length := by
      rw [t.bytes_eq]
      rfl
    rw [third, byteOf_toNat (by omega)]

theorem Template.bytes_drop_three :
    t.bytes.drop 3 = t.substitutions.flatMap Substitution.bytes ++ t.body := by
  rw [t.bytes_eq]
  rfl

theorem Template.bytes_drop_body : t.bytes.drop (3 + 6 * t.substitutions.length) = t.body := by
  rw [← List.drop_drop, t.bytes_drop_three, List.drop_left' (flat_length _)]

/-- The six bytes of a substitution stand in the template's. -/
theorem Template.bytes_window {i : Nat} {x : Substitution} (found : t.substitutions[i]? = some x) :
    ((t.bytes.drop 3).drop (6 * i)).take 6 = x.bytes := by
  obtain ⟨more, rest⟩ := flat_drop t.substitutions i x t.body found
  rw [t.bytes_drop_three, rest, List.take_left' (subs_bytes_length x)]

end

theorem Substitution.bytes_target (x : Substitution) : natAt x.bytes 0 2 = beNat (nat16 x.target) := by
  obtain ⟨target, source⟩ := x
  cases source <;> rfl

/-- A source stands in its own bytes. -/
theorem Substitution.bytes_standsIn {x : Substitution} (range : x.source.inRange) : x.source.standsIn x.bytes := by
  obtain ⟨target, source⟩ := x
  cases source with
  | triggerSource => rfl
  | stationAddress => rfl
  | unitAddress => rfl
  | triggerBytes off n =>
    obtain ⟨near, -, short⟩ := range off n rfl
    refine ⟨rfl, byteOf_toNat (by omega), ?_⟩
    exact beNat_nat16 (by omega)

theorem Substitution.bytes_unused {x : Substitution} (other : ∀ off n, x.source ≠ .triggerBytes off n) :
    byteAt x.bytes 3 = 0 ∧ natAt x.bytes 4 2 = 0 := by
  obtain ⟨target, source⟩ := x
  cases source with
  | triggerSource => exact ⟨rfl, rfl⟩
  | stationAddress => exact ⟨rfl, rfl⟩
  | unitAddress => exact ⟨rfl, rfl⟩
  | triggerBytes off n => exact absurd rfl (other off n)

/-- What TEMPLATE_READ answers is read back as the template. -/
theorem Template.read_bytes {t : Template} (fitting : t.Fitting) : Template.read t.bytes = some t := by
  obtain ⟨size, count⟩ := t.bytes_counts fitting
  have body := fitting.body
  have few := fitting.count
  refine (Template.read_iff t (by omega) (by omega) (by omega) (by rw [t.bytes_length, count, size])).2
    ⟨fitting, count, t.bytes_drop_body, fun i x found => ?_⟩
  have listed := List.mem_of_getElem? found
  have fits := fitting.fits x listed
  refine ⟨?_, ?_⟩
  · rw [← natAt_window, t.bytes_window found, Substitution.bytes_target, beNat_nat16 (by omega)]
  · rw [t.bytes_window found]
    exact Substitution.bytes_standsIn (fitting.trigger x listed)

/-- Settles O37: `Template.read_iff`, and the same read backwards on the bytes of TEMPLATE_READ. -/
theorem templateIsReadByItsLayout : Obligations.TemplateIsReadByItsLayout := by
  refine ⟨fun l t few low high length => ?_, fun t fitting => ?_⟩
  · rw [Template.read_iff t few low high length]
    simp only [Source.standsIn_window] <;> rfl
  · obtain ⟨size, count⟩ := t.bytes_counts fitting
    refine ⟨Template.read_bytes fitting, t.bytes_length, size, count, fun i x found other => ?_⟩
    obtain ⟨length, offset⟩ := Substitution.bytes_unused other
    rw [← t.bytes_window found, List.drop_drop] at length offset
    rw [byteAt_take (by omega), byteAt_drop] at length
    rw [natAt_take (by omega), natAt_drop] at offset
    exact ⟨length, offset⟩

end Sys2Proof.Machine
end

section
/-! The tables' commands: RULE_STAGE, RULE_COMMIT, PROFILE_WRITE, TEMPLATE_WRITE and the reads. -/

namespace Sys2Proof.Machine

/-! ## RULE_STAGE (R41, R131, R152) -/

/-- The parameters of a RULE_STAGE or a TEMPLATE_WRITE: an index, an action, and what the action takes. -/
def entryParams (index action : Byte) (rest : List Byte) : List Byte := [index, action] ++ rest

theorem entryParams_length (index action : Byte) (rest : List Byte) :
    (entryParams index action rest).length = 2 + rest.length := by
  simp [entryParams]
  omega

theorem toNat_ne_zero {x : Byte} (h : x ≠ 0) : x.toNat ≠ 0 := fun zero => h (BitVec.eq_of_toNat_eq zero)

section
variable (u : State) {index action : Byte} {record : List Byte}

theorem ownRuleStage_eq : ownRuleStage (entryParams index action record) u =
    if 32 ≤ index.toNat then .refuse u .badIndex
    else if 2 < action.toNat then .refuse u .badValue
    else if action ≠ 0 then
      if (entryParams index action record).length ≠ 2 then .refuse u .badLength
      else u.stage index (if action = 1 then .stagedEmpty else .noChange)
    else if ruleLength (entryParams index action record).length record ≠ .ok then
      .refuse u (ruleLength (entryParams index action record).length record)
    else (RuleRecord.read record).elim (.refuse u .badValue) fun r => u.stage index (.stagedRecord r) := by
  have rest : (entryParams index action record).drop 2 = record := rfl
  have first : byteAt (entryParams index action record) 0 = index := rfl
  have second : byteAt (entryParams index action record) 1 = action := rfl
  simp only [ownRuleStage, rest, first, second]
  cases RuleRecord.read record <;> rfl

theorem ownRuleStage_badIndex (bad : 32 ≤ index.toNat) :
    ownRuleStage (entryParams index action record) u = .refuse u .badIndex := by
  rw [ownRuleStage_eq, if_pos bad]

section
variable (good : index.toNat < 32)
include good

theorem ownRuleStage_badAction (bad : 3 ≤ action.toNat) :
    ownRuleStage (entryParams index action record) u = .refuse u .badValue := by
  rw [ownRuleStage_eq, if_neg (not_le.2 good), if_pos (show 2 < action.toNat from bad)]

/-- EMPTY and WITHDRAW take no record. -/
theorem ownRuleStage_extra (plain : action = 1 ∨ action = 2) (extra : record ≠ []) :
    ownRuleStage (entryParams index action record) u = .refuse u .badLength := by
  have long : (entryParams index action record).length ≠ 2 := by
    rw [entryParams_length]
    have := List.length_pos_iff.2 extra
    omega
  rw [ownRuleStage_eq, if_neg (not_le.2 good), if_neg (by rcases plain with rfl | rfl <;> decide),
    if_pos (by rcases plain with rfl | rfl <;> decide), if_pos long]

theorem ownRuleStage_empty :
    ownRuleStage (entryParams index 1 []) u = u.stage index .stagedEmpty := by
  rw [ownRuleStage_eq, if_neg (not_le.2 good)]
  rfl

theorem ownRuleStage_withdraw :
    ownRuleStage (entryParams index 2 []) u = u.stage index .noChange := by
  rw [ownRuleStage_eq, if_neg (not_le.2 good)]
  rfl

theorem ownRuleStage_badRecord {x : Status} (judged : ruleLength (2 + record.length) record = x) (refused : x ≠ .ok) :
    ownRuleStage (entryParams index 0 record) u = .refuse u x := by
  subst judged
  rw [ownRuleStage_eq, if_neg (not_le.2 good), if_neg (by decide), if_neg (by decide), entryParams_length,
    if_pos refused]

theorem ownRuleStage_read (judged : ruleLength (2 + record.length) record = .ok) :
    ownRuleStage (entryParams index 0 record) u =
      (RuleRecord.read record).elim (.refuse u .badValue) fun r => u.stage index (.stagedRecord r) := by
  rw [ownRuleStage_eq, if_neg (not_le.2 good), if_neg (by decide), if_neg (by decide), entryParams_length,
    if_neg (not_not.2 judged)]

end

end

/-- The lengths that R130 permits a RULE_STAGE, by its record. -/
theorem ruleStage_lengthOk {index action : Byte} {record : List Byte}
    (permitted : record = [] ∨ (23 ≤ record.length ∧ record.length ≤ 39)) :
    Cmd.ruleStage.lengthOk (entryParams index action record).length = true := by
  rw [entryParams_length]
  rcases permitted with rfl | ⟨low, high⟩
  · rfl
  · simp only [Cmd.lengthOk, Bool.or_eq_true, beq_iff_eq, Bool.and_eq_true, decide_eq_true_eq]
    omega

/-! ### The agreement of a record's length with its list (R131) -/

section
variable {record : List Byte}

theorem ruleLength_short (short : record.length < 23) : ruleLength (2 + record.length) record = .badLength :=
  if_pos (by omega)

variable (long : 23 ≤ record.length)
include long

theorem ruleLength_badList (bad : 16 < (byteAt record 22).toNat ∨ (byteAt record 7 = 0 ∧ byteAt record 22 ≠ 0)) :
    ruleLength (2 + record.length) record = .badValue := by
  rw [ruleLength, natAt_byte, if_neg (by omega), if_pos (bad.imp_right fun ⟨kind, listed⟩ =>
    ⟨kind, toNat_ne_zero listed⟩)]

variable (few : (byteAt record 22).toNat ≤ 16) (bare : byteAt record 7 = 0 → byteAt record 22 = 0)
include few bare

theorem ruleLength_agreed : ruleLength (2 + record.length) record =
    if 2 + record.length ≠ 25 + (byteAt record 22).toNat then .badLength else .ok := by
  have agreed : ¬ (16 < (byteAt record 22).toNat ∨ (byteAt record 7 = 0 ∧ (byteAt record 22).toNat ≠ 0)) := by
    rintro (many | ⟨kind, listed⟩)
    · omega
    · exact listed (by rw [bare kind]; rfl)
  rw [ruleLength, natAt_byte, if_neg (by omega), if_neg agreed]

end

/-- A record that RULE_READ could answer agrees with its list. -/
theorem ruleLength_bytes {r : RuleRecord} (sound : r.Consistent) : ruleLength (2 + r.bytes.length) r.bytes = .ok := by
  obtain ⟨-, -, -, -, -, kind, -, -, -, -, -, count, -⟩ := r.bytes_fields
  have few : r.test.list.length ≤ 16 := by
    cases form : r.test with
    | signature e => exact Nat.zero_le _
    | exactly l =>
      obtain ⟨most, length⟩ := sound.exactly l form
      exact length.trans_le most
  have size : (byteAt r.bytes 22).toNat = r.test.list.length := by rw [count, byteOf_toNat (by omega)]
  have long := r.bytes_length
  rw [ruleLength_agreed (by omega) (by omega) ?_, if_neg (by omega)]
  rw [kind, count]
  cases r.test with
  | signature e => exact fun _ => rfl
  | exactly l => exact fun signature => absurd (show (1 : Byte) = 0 from signature) (by decide)

/-- Settles O30: `ownRuleStage` check by check; an entry staged makes nothing due. -/
theorem ruleStageSetsOneEntry : Obligations.RuleStageSetsOneEntry := by
  refine ⟨fun s h b index action record hs hx permitted => ?_, rfl, fun r => rfl, rfl⟩
  have row : (Instr.ruleStage h index action record).asCommand =
    some (h, .ruleStage, entryParams index action record) := rfl
  have length := ruleStage_lengthOk (index := index) (action := action) permitted
  intro staged refused
  have stage : ∀ e, ownRuleStage (entryParams index action record) (s.heard .line) = (s.heard .line).stage index e →
      staged e := fun e own => by
    have quiet := exec_owned_quiet (u := (s.heard .line).setRules
      { s.rules with staged := s.rules.staged.set index.toNat e }) row hs hx rfl (by decide) length own
      rfl rfl rfl rfl rfl rfl rfl rfl
    rwa [State.executed_setRules] at quiet
  have refuse : ∀ x, ownRuleStage (entryParams index action record) (s.heard .line) = .refuse (s.heard .line) x →
      refused x := fun x own => exec_executed row hs hx rfl (by decide) length own
  have short : record = [] → record.length < 23 := by rintro rfl; decide
  have whole : record ≠ [] → 23 ≤ record.length := fun given => (permitted.resolve_left given).1
  refine ⟨fun bad => refuse _ (ownRuleStage_badIndex _ bad),
    fun good bad => refuse _ (ownRuleStage_badAction _ good bad),
    fun good empty => ⟨fun none => ?_, fun extra => refuse _ (ownRuleStage_extra _ good (.inl empty) extra)⟩,
    fun good withdraw => ⟨fun none => ?_, fun extra => refuse _ (ownRuleStage_extra _ good (.inr withdraw) extra)⟩,
    fun good define => ?_, fun r good define sound bytes => ?_⟩
  · exact stage _ (by rw [empty, none]; exact ownRuleStage_empty _ good)
  · exact stage _ (by rw [withdraw, none]; exact ownRuleStage_withdraw _ good)
  · rw [define] at refuse stage
    refine ⟨fun none => refuse _ (ownRuleStage_badRecord _ good (ruleLength_short (short none)) (by decide)),
      fun given bad => refuse _ (ownRuleStage_badRecord _ good (ruleLength_badList (whole given) bad) (by decide)),
      fun given few bare => ⟨fun other => refuse _ (ownRuleStage_badRecord _ good ?_ (by decide)), fun agreed => ?_⟩⟩
    · rw [ruleLength_agreed (whole given) few bare, if_pos (by omega)]
    · have judged : ruleLength (2 + record.length) record = .ok := by
        rw [ruleLength_agreed (whole given) few bare, if_neg (by omega)]
      have read := ownRuleStage_read (s.heard .line) good judged
      exact ⟨fun none => refuse _ (by rw [read, none]; rfl), fun r found => stage _ (by rw [read, found]; rfl)⟩
  · rw [define] at stage
    subst bytes
    exact stage _ (by rw [ownRuleStage_read _ good (ruleLength_bytes sound), RuleRecord.read_bytes sound]; rfl)

/-! ## RULE_COMMIT (R43) -/

theorem exec_ruleCommit {s : State} {h : CmdHeader} {b : Binding} (hs : s.Settled) (hx : s.Executes h b) :
    exec (.ruleCommit h) s = .next
      ((s.executed h .ruleCommit b .ok [byteOf (stagedCount s.rules.staged)]).setRules s.rules.commit) := by
  have row : (Instr.ruleCommit h).asCommand = some (h, .ruleCommit, []) := rfl
  have own : Cmd.ruleCommit.own (Ctl.ofCommand h .ruleCommit []) (s.heard .line) =
      { state := (s.heard .line).setRules s.rules.commit, status := .ok
        body := [byteOf (stagedCount s.rules.staged)] } := rfl
  rw [exec_owned_quiet row hs hx rfl (by decide) rfl own rfl rfl rfl rfl rfl rfl rfl rfl, State.executed_setRules]

/-- Settles O33: the run of RULE_COMMIT, with the active table of `commitTable_spec`. -/
theorem ruleCommitAppliesTheStagedTable : Obligations.RuleCommitAppliesTheStagedTable := by
  intro s h b hs hx capacities
  obtain ⟨length, entries⟩ := commitTable_spec s.rules.active s.rules.staged
  refine ⟨commitTable s.rules.active s.rules.staged, length.trans capacities.active, fun i e active =>
    ⟨entries i e _ active, fun r => entries i e _ active, entries i e _ active⟩, ?_⟩
  have cleared : unstaged s.rules.staged = List.replicate 32 .noChange := by
    rw [← capacities.staged, unstaged, List.map_const']
  rw [exec_ruleCommit hs hx, stagedCount_eq_countP, Classifier.commit, cleared]

/-! ## PROFILE_WRITE (R9, R148, R154) -/

section
variable (u : State) {index : Byte} {record : List Byte}

theorem ownProfileWrite_badIndex (bad : 4 ≤ index.toNat) :
    ownProfileWrite (index :: record) u = .refuse u .badIndex := if_pos bad

theorem ownProfileWrite_badValue (good : index.toNat < 4) (bad : 2 ≤ (byteAt record 0).toNat) :
    ownProfileWrite (index :: record) u = .refuse u .badValue :=
  (if_neg (not_le.2 good)).trans (if_pos bad)

theorem ownProfileWrite_define (good : index.toNat < 4) (defined : byteAt record 0 = 1) :
    ownProfileWrite (index :: record) u =
      (Profile.read record).elim (.refuse u .badValue) fun p => .ok (u.setProfile index.toNat (some p)) [] := by
  have first : byteAt (index :: record) 0 = index := rfl
  have rest : (index :: record).drop 1 = record := rfl
  simp only [ownProfileWrite, first, rest, defined]
  rw [if_neg (not_le.2 good), if_neg (by decide), if_neg (by decide)]
  cases Profile.read record <;> rfl

theorem ownProfileWrite_undefine (good : index.toNat < 4) (undefined : byteAt record 0 = 0) :
    ownProfileWrite (index :: record) u = u.undefineProfile index.toNat := by
  have first : byteAt (index :: record) 0 = index := rfl
  have rest : (index :: record).drop 1 = record := rfl
  simp only [ownProfileWrite, first, rest, undefined]
  rw [if_neg (not_le.2 good), if_neg (by decide), if_pos trivial]

end

theorem ActiveProfile.isRecord_iff (a : ActiveProfile) (n : Nat) :
    a.isRecord n = true ↔ ∃ i, a = .record i ∧ i.val = n := by
  cases a <;> simp [ActiveProfile.isRecord]

/-- Settles O34: `ownProfileWrite` check by check; a change of the profiles makes nothing due. -/
theorem profileWriteDefinesOrUndefines : Obligations.ProfileWriteDefinesOrUndefines := by
  intro s h b index record hs hx size
  have row : (Instr.profileWrite h index record).asCommand = some (h, .profileWrite, index :: record) := rfl
  have length : Cmd.profileWrite.lengthOk (index :: record).length = true := by rw [List.length_cons, size]; rfl
  intro taken refused
  have take : ∀ ctx : Context, ctx.station = s.ctx.station →
      ownProfileWrite (index :: record) (s.heard .line) = .ok ((s.heard .line).setCtx ctx) [] → taken ctx :=
    fun ctx still own => by
      have quiet := exec_owned_quiet (u := (s.heard .line).setCtx ctx) row hs hx rfl (by decide) length own
        rfl rfl rfl rfl rfl still rfl rfl
      rwa [State.executed_setCtx] at quiet
  have refuse : ∀ x, ownProfileWrite (index :: record) (s.heard .line) = .refuse (s.heard .line) x → refused x :=
    fun x own => exec_executed row hs hx rfl (by decide) length own
  refine ⟨fun bad => refuse _ (ownProfileWrite_badIndex _ bad),
    fun good bad => refuse _ (ownProfileWrite_badValue _ good bad), fun good defined => ?_, fun good undefined => ?_⟩
  · have own := ownProfileWrite_define (s.heard .line) good defined
    exact ⟨fun none => refuse _ (by rw [own, none]; rfl), fun p read => take _ rfl (by rw [own, read]; rfl)⟩
  · have own := ownProfileWrite_undefine (s.heard .line) good undefined
    refine ⟨fun other => take _ rfl ?_, fun i active same => ⟨fun awake => take _ rfl ?_, fun away => refuse _ ?_⟩⟩
    · have inactive : ¬ s.ctx.active.isRecord index.toNat = true := fun active => by
        obtain ⟨i, record, same⟩ := (ActiveProfile.isRecord_iff _ _).1 active
        exact other i record same
      exact own.trans (if_neg inactive)
    · have found : s.ctx.active.isRecord index.toNat = true := (ActiveProfile.isRecord_iff _ _).2 ⟨i, active, same⟩
      exact own.trans ((if_pos found).trans (if_pos awake))
    · have found : s.ctx.active.isRecord index.toNat = true := (ActiveProfile.isRecord_iff _ _).2 ⟨i, active, same⟩
      exact own.trans ((if_pos found).trans (if_neg away))

end Sys2Proof.Machine
end

section
/-! TEMPLATE_WRITE, the tables' reads, and COUNTERS_READ. -/

namespace Sys2Proof.Machine

/-! ## TEMPLATE_WRITE (R102, R131, R156) -/

section
variable (u : State) {index action : Byte} {template : List Byte}

theorem ownTemplateWrite_eq : ownTemplateWrite (entryParams index action template) u =
    if 16 ≤ index.toNat then .refuse u .badIndex
    else if 1 < action.toNat then .refuse u .badValue
    else if action = 1 then
      if (entryParams index action template).length ≠ 2 then .refuse u .badLength
      else .ok (u.setTemplate index.toNat none) []
    else if templateLength (entryParams index action template).length template ≠ .ok then
      .refuse u (templateLength (entryParams index action template).length template)
    else (Template.read template).elim (.refuse u .badValue) fun t => .ok (u.setTemplate index.toNat (some t)) [] := by
  have rest : (entryParams index action template).drop 2 = template := rfl
  have first : byteAt (entryParams index action template) 0 = index := rfl
  have second : byteAt (entryParams index action template) 1 = action := rfl
  simp only [ownTemplateWrite, rest, first, second]
  cases Template.read template <;> rfl

theorem ownTemplateWrite_badIndex (bad : 16 ≤ index.toNat) :
    ownTemplateWrite (entryParams index action template) u = .refuse u .badIndex := by
  rw [ownTemplateWrite_eq, if_pos bad]

variable (good : index.toNat < 16)
include good

theorem ownTemplateWrite_badAction (bad : 2 ≤ action.toNat) :
    ownTemplateWrite (entryParams index action template) u = .refuse u .badValue := by
  rw [ownTemplateWrite_eq, if_neg (not_le.2 good), if_pos (show 1 < action.toNat from bad)]

/-- UNDEFINE takes no template. -/
theorem ownTemplateWrite_extra (extra : template ≠ []) :
    ownTemplateWrite (entryParams index 1 template) u = .refuse u .badLength := by
  have long : (entryParams index 1 template).length ≠ 2 := by
    rw [entryParams_length]
    have := List.length_pos_iff.2 extra
    omega
  rw [ownTemplateWrite_eq, if_neg (not_le.2 good), if_neg (by decide), if_pos rfl, if_pos long]

theorem ownTemplateWrite_undefine :
    ownTemplateWrite (entryParams index 1 []) u = .ok (u.setTemplate index.toNat none) [] := by
  rw [ownTemplateWrite_eq, if_neg (not_le.2 good)]
  rfl

theorem ownTemplateWrite_badTemplate {x : Status} (judged : templateLength (2 + template.length) template = x)
    (refused : x ≠ .ok) : ownTemplateWrite (entryParams index 0 template) u = .refuse u x := by
  subst judged
  rw [ownTemplateWrite_eq, if_neg (not_le.2 good), if_neg (by decide), if_neg (by decide), entryParams_length,
    if_pos refused]

theorem ownTemplateWrite_read (judged : templateLength (2 + template.length) template = .ok) :
    ownTemplateWrite (entryParams index 0 template) u =
      (Template.read template).elim (.refuse u .badValue) fun t => .ok (u.setTemplate index.toNat (some t)) [] := by
  rw [ownTemplateWrite_eq, if_neg (not_le.2 good), if_neg (by decide), if_neg (by decide), entryParams_length,
    if_neg (not_not.2 judged)]

end

/-- The lengths that R130 permits a TEMPLATE_WRITE, by its template. -/
theorem templateWrite_lengthOk {index action : Byte} {template : List Byte}
    (permitted : template = [] ∨ (63 ≤ template.length ∧ template.length ≤ 283)) :
    Cmd.templateWrite.lengthOk (entryParams index action template).length = true := by
  rw [entryParams_length]
  rcases permitted with rfl | ⟨low, high⟩
  · rfl
  · simp only [Cmd.lengthOk, Bool.or_eq_true, beq_iff_eq, Bool.and_eq_true, decide_eq_true_eq]
    omega

/-! ### The agreement of a template's length with its counts (R131) -/

section
variable {template : List Byte}

theorem templateLength_short (short : template.length < 63) :
    templateLength (2 + template.length) template = .badLength :=
  if_pos (by omega)

variable (long : 63 ≤ template.length)
include long

theorem templateLength_badCounts
    (bad : 4 < (byteAt template 2).toNat ∨ natAt template 0 2 < 60 ∨ 256 < natAt template 0 2) :
    templateLength (2 + template.length) template = .badValue := by
  rw [templateLength, natAt_byte, if_neg (by omega), if_pos bad]

theorem templateLength_agreed (few : (byteAt template 2).toNat ≤ 4) (low : 60 ≤ natAt template 0 2)
    (high : natAt template 0 2 ≤ 256) : templateLength (2 + template.length) template =
      if 2 + template.length ≠ 5 + 6 * (byteAt template 2).toNat + natAt template 0 2 then .badLength else .ok := by
  rw [templateLength, natAt_byte, if_neg (by omega), if_neg (by omega)]

end

/-- A template that TEMPLATE_READ could answer agrees with its counts. -/
theorem templateLength_bytes {t : Template} (fitting : t.Fitting) :
    templateLength (2 + t.bytes.length) t.bytes = .ok := by
  obtain ⟨size, count⟩ := t.bytes_counts fitting
  have body := fitting.body
  have few := fitting.count
  have length := t.bytes_length
  rw [templateLength_agreed (by omega) (by omega) (by omega) (by omega), if_neg (by omega)]

/-- Settles O36: `ownTemplateWrite` check by check; an entry replaced makes nothing due. -/
theorem templateWriteReplacesTheEntry : Obligations.TemplateWriteReplacesTheEntry := by
  intro s h b index action template hs hx permitted
  have row : (Instr.templateWrite h index action template).asCommand =
    some (h, .templateWrite, entryParams index action template) := rfl
  have length := templateWrite_lengthOk (index := index) (action := action) permitted
  intro taken refused size count
  have take : ∀ t, ownTemplateWrite (entryParams index action template) (s.heard .line) =
      .ok ((s.heard .line).setTemplate index.toNat t) [] → taken t := fun t own => by
    have quiet := exec_owned_quiet (u := (s.heard .line).setAnswers
      { s.answers with templates := s.answers.templates.set index.toNat t }) row hs hx rfl (by decide) length own
      rfl rfl rfl rfl rfl rfl rfl rfl
    rwa [State.executed_setAnswers] at quiet
  have refuse : ∀ x, ownTemplateWrite (entryParams index action template) (s.heard .line) =
      .refuse (s.heard .line) x → refused x := fun x own => exec_executed row hs hx rfl (by decide) length own
  have short : template = [] → template.length < 63 := by rintro rfl; decide
  have whole : template ≠ [] → 63 ≤ template.length := fun given => (permitted.resolve_left given).1
  refine ⟨fun bad => refuse _ (ownTemplateWrite_badIndex _ bad),
    fun good bad => refuse _ (ownTemplateWrite_badAction _ good bad), fun good undefine => ?_, fun good define => ?_,
    fun t good define fitting bytes => ?_⟩
  · rw [undefine] at refuse take
    exact ⟨fun none => take _ (by rw [none]; exact ownTemplateWrite_undefine _ good),
      fun extra => refuse _ (ownTemplateWrite_extra _ good extra)⟩
  · rw [define] at refuse take
    refine ⟨fun none => refuse _ (ownTemplateWrite_badTemplate _ good (templateLength_short (short none)) (by decide)),
      fun given bad => refuse _ (ownTemplateWrite_badTemplate _ good (templateLength_badCounts (whole given) bad)
        (by decide)),
      fun given few low high => ⟨fun other => refuse _ (ownTemplateWrite_badTemplate _ good ?_ (by decide)),
        fun agreed => ?_⟩⟩
    · rw [templateLength_agreed (whole given) few low high, if_pos (by omega)]
    · have judged : templateLength (2 + template.length) template = .ok := by
        rw [templateLength_agreed (whole given) few low high, if_neg (by omega)]
      have read := ownTemplateWrite_read (s.heard .line) good judged
      exact ⟨fun none => refuse _ (by rw [read, none]; rfl), fun t found => take _ (by rw [read, found]; rfl)⟩
  · rw [define] at take
    subst bytes
    exact take _ (by rw [ownTemplateWrite_read _ good (templateLength_bytes fitting), Template.read_bytes fitting]; rfl)

/-! ## RULE_READ, PROFILE_READ and TEMPLATE_READ (R103, R153, R155, R156) -/

section
variable (u : State) {table index : Byte}

theorem ownRuleRead_badIndex (bad : 32 ≤ index.toNat) : ownRuleRead [table, index] u = .refuse u .badIndex :=
  if_pos bad

variable (good : index.toNat < 32)
include good

theorem ownRuleRead_badTable (bad : 2 ≤ table.toNat) : ownRuleRead [table, index] u = .refuse u .badValue :=
  (if_neg (not_le.2 good)).trans (if_pos bad)

theorem ownRuleRead_active {e : ActiveEntry} (found : u.rules.active[index.toNat]? = some e) :
    ownRuleRead [0, index] u =
      .ok u ([0, index] ++ ([boolByte e.record.isSome] ++ be32 e.count ++ recordBytes e.record)) := by
  have first : byteAt [0, index] 0 = 0 := rfl
  have second : byteAt [0, index] 1 = index := rfl
  have entry : u.rules.active.getD index.toNat .empty = e := by
    rw [List.getD_eq_getElem?_getD, found, Option.getD_some]
  simp only [ownRuleRead, first, second, entry]
  rw [if_neg (not_le.2 good)]
  rfl

theorem ownRuleRead_staged {e : StagedEntry} (found : u.rules.staged[index.toNat]? = some e) :
    ownRuleRead [1, index] u = .ok u ([1, index] ++ ([e.code, 0, 0, 0, 0] ++ recordBytes e.record?)) := by
  have first : byteAt [1, index] 0 = 1 := rfl
  have second : byteAt [1, index] 1 = index := rfl
  have entry : u.rules.staged.getD index.toNat .noChange = e := by
    rw [List.getD_eq_getElem?_getD, found, Option.getD_some]
  simp only [ownRuleRead, first, second, entry]
  rw [if_neg (not_le.2 good)]
  rfl

end

section
variable (u : State) {index : Byte}

theorem ownProfileRead_badIndex (bad : 4 ≤ index.toNat) : ownProfileRead [index] u = .refuse u .badIndex :=
  if_pos bad

theorem ownProfileRead_ok {p : Option Profile} (good : index.toNat < 4)
    (found : u.ctx.profiles[index.toNat]? = some p) :
    ownProfileRead [index] u = .ok u ([index] ++ profileBytes p) := by
  have first : byteAt [index] 0 = index := rfl
  have entry : u.ctx.profiles.getD index.toNat none = p := by
    rw [List.getD_eq_getElem?_getD, found, Option.getD_some]
  simp only [ownProfileRead, first, entry]
  rw [if_neg (not_le.2 good)]

theorem ownTemplateRead_badIndex (bad : 16 ≤ index.toNat) : ownTemplateRead [index] u = .refuse u .badIndex :=
  if_pos bad

theorem ownTemplateRead_ok {t : Option Template} (good : index.toNat < 16)
    (found : u.answers.templates[index.toNat]? = some t) :
    ownTemplateRead [index] u = .ok u (t.elim [index, 0] fun t => [index, 1] ++ t.bytes) := by
  have first : byteAt [index] 0 = index := rfl
  have entry : u.answers.templates.getD index.toNat none = t := by
    rw [List.getD_eq_getElem?_getD, found, Option.getD_some]
  simp only [ownTemplateRead, first, entry]
  rw [if_neg (not_le.2 good)]
  cases t <;> rfl

end

theorem lt_of_getElem?_some {α : Type} {l : List α} {i : Nat} {x : α} (found : l[i]? = some x) : i < l.length := by
  obtain ⟨inside, -⟩ := List.getElem?_eq_some_iff.1 found
  exact inside

/-- Settles O38: the three reads' bodies; a read changes nothing but the session (`exec_executed`). -/
theorem tableReadsAnswerTheEntry : Obligations.TableReadsAnswerTheEntry := by
  intro s h b hs hx capacities
  refine ⟨fun table index => ?rules, fun index => ⟨fun bad => ?_, fun p found => ?_, fun bad => ?_, fun found => ?_,
    fun t found => ?_⟩, rfl⟩
  case rules =>
    intro answered refused
    have row : (Instr.ruleRead h table index).asCommand = some (h, .ruleRead, [table, index]) := rfl
    have answer : ∀ body, ownRuleRead [table, index] (s.heard .line) = .ok (s.heard .line) ([table, index] ++ body) →
        answered body := fun body own => exec_executed row hs hx rfl (by decide) rfl own
    have refuse : ∀ x, ownRuleRead [table, index] (s.heard .line) = .refuse (s.heard .line) x → refused x :=
      fun x own => exec_executed row hs hx rfl (by decide) rfl own
    have active : ∀ e : ActiveEntry, table = 0 → s.rules.active[index.toNat]? = some e →
        answered ([boolByte e.record.isSome] ++ be32 e.count ++ recordBytes e.record) := by
      rintro e rfl found
      have inside := lt_of_getElem?_some found
      rw [capacities.active] at inside
      exact answer _ (ownRuleRead_active _ inside found)
    have staged : ∀ e : StagedEntry, table = 1 → s.rules.staged[index.toNat]? = some e →
        answered ([e.code, 0, 0, 0, 0] ++ recordBytes e.record?) := by
      rintro e rfl found
      have inside := lt_of_getElem?_some found
      rw [capacities.staged] at inside
      exact answer _ (ownRuleRead_staged _ inside found)
    refine ⟨fun bad => refuse _ (ownRuleRead_badIndex _ bad),
      fun good bad => refuse _ (ownRuleRead_badTable _ good bad),
      fun e first found => ⟨fun empty => ?_, fun r record => ?_⟩, staged .noChange,
      fun r => staged (.stagedRecord r), staged .stagedEmpty⟩
    · have body := active e first found
      rwa [empty] at body
    · have body := active e first found
      rwa [record] at body
  · exact exec_executed rfl hs hx rfl (by decide) rfl (ownProfileRead_badIndex (s.heard .line) bad)
  · have inside := lt_of_getElem?_some found
    rw [capacities.profiles] at inside
    exact exec_executed rfl hs hx rfl (by decide) rfl (ownProfileRead_ok (s.heard .line) inside found)
  · exact exec_executed rfl hs hx rfl (by decide) rfl (ownTemplateRead_badIndex (s.heard .line) bad)
  · have inside := lt_of_getElem?_some found
    rw [capacities.templates] at inside
    exact exec_executed rfl hs hx rfl (by decide) rfl (ownTemplateRead_ok (s.heard .line) inside found)
  · have inside := lt_of_getElem?_some found
    rw [capacities.templates] at inside
    exact exec_executed rfl hs hx rfl (by decide) rfl (ownTemplateRead_ok (s.heard .line) inside found)

/-! ## COUNTERS_READ (R146, R162, R175) -/

theorem ownCountersRead_badValue (u : State) {group clear : Byte}
    (bad : 4 ≤ group.toNat ∨ 2 ≤ clear.toNat ∨ (group = 2 ∧ clear = 1)) :
    ownCountersRead [group, clear] u = .refuse u .badValue :=
  if_pos bad

/-- The choice of an idle line transmitter and the clearing of the counters do not touch each other. -/
theorem State.settleLine_clearPorts (s : State) : s.clearPorts.settleLine = s.settleLine.clearPorts := by
  have same : s.clearPorts.lineChoiceDue = s.lineChoiceDue := rfl
  cases due : s.lineChoiceDue with
  | false => rw [State.settleLine_of_not due, State.settleLine_of_not (same.trans due)]
  | true =>
    rw [State.settleLine_of_due due, State.settleLine_of_due (same.trans due)]
    rfl

/-- The clearing of the counters makes nothing due: where the line's choice alone may be, it is taken as before. -/
theorem State.settle_clearPorts {s : State} (reset : s.resetDue = false) (releaseEnd : s.releaseEndDue = false)
    (drainEnd : s.drainEndDue = false) (delivery : s.deliveryDue = false) (stationChoice : s.stationChoiceDue = false)
    (offer : s.offerDue = false) : s.clearPorts.settle = s.settleLine.clearPorts := by
  rw [← State.settleLine_clearPorts]
  exact State.settle_of_lineChoice reset releaseEnd drainEnd delivery stationChoice offer

/-- A notice that could not be offered before a response was placed cannot be offered after it. -/
theorem State.offerDue_place {s : State} (r : CtlFrame) (offer : s.offerDue = false) :
    (s.place .line r).offerDue = false := by
  simp only [State.offerDue, State.place, Bool.and_eq_false_iff] at offer ⊢
  refine offer.imp_right fun full => ?_
  have no := of_decide_eq_false full
  simp only [State.setLine, List.length_append]
  exact decide_eq_false (by omega)

section
variable {s : State} {h : CmdHeader} {b : Binding}

/-- What stands before the part's own steps where the response to a command was placed under its binding: the line's
choice alone may be due. -/
theorem State.settle_clearPorts_accepted (r : CtlFrame) (hs : s.nothingDue = true) (hx : s.Executes h b) :
    (((s.heard .line).place .line r).setBinding (some (b.accept r))).clearPorts.settle =
      ((s.withReply .line r).setBinding (some (b.accept r))).clearPorts := by
  obtain ⟨-, releaseEnd, drainEnd, delivery, lineChoice, stationChoice, offer⟩ := (State.nothingDue_iff s).1 hs
  have room : s.line.control.length < 4 := by have := hx.room; rwa [hx.port] at this
  have up : s.line.linkUp = true := by have := hx.up; rwa [hx.port] at this
  have still : ((s.heard .line).setBinding (some (b.accept r))).offerDue = false :=
    State.offerDue_of_room (v := (s.heard .line).setBinding (some (b.accept r))) offer room rfl
      fun _ => by rw [hx.binding]; rfl
  have line : (((s.heard .line).place .line r).setBinding (some (b.accept r))).settleLine =
      (s.withReply .line r).setBinding (some (b.accept r)) :=
    State.settleLine_reply (u := ((s.heard .line).place .line r).setBinding (some (b.accept r))) r up rfl
      (State.lineIdle lineChoice up)
  rw [State.settle_clearPorts, line]
  · simp [State.resetDue, State.setBinding, State.place, hx.noReset]
  · simpa [State.releaseEndDue, State.setBinding, State.place] using releaseEnd
  · simpa [State.drainEndDue, State.drained, State.delivering, State.setBinding, State.place] using drainEnd
  · simpa [State.deliveryDue, State.delivering, State.setBinding, State.place] using delivery
  · simpa [State.stationChoiceDue, State.delivering, State.setBinding, State.place, State.heard] using stationChoice
  · exact State.offerDue_place r still

/-- A COUNTERS_READ of the PORTS group with the clear flag. -/
theorem exec_countersRead_clearPorts (hs : s.Settled) (hx : s.Executes h b) :
    exec (.countersRead h 0 1) s = .next
      (s.executed h .countersRead b .ok (groupBody 0 (s.heard .line).portsGroup)).clearPorts := by
  have row : (Instr.countersRead h 0 1).asCommand = some (h, .countersRead, [0, 1]) := rfl
  have own : Cmd.countersRead.own (Ctl.ofCommand h .countersRead [0, 1]) (s.heard .line) =
      .ok (s.heard .line).clearPorts (groupBody 0 (s.heard .line).portsGroup) := rfl
  rw [exec_executes row hx rfl rfl, State.execute_eq _ _ _ _ _ (by decide), own, hx.port, State.heard_reply]
  exact congrArg _ (State.settle_clearPorts_accepted _ (hs hx.high) hx)

/-- A COUNTERS_READ that clears nothing. -/
theorem exec_countersRead_read {group clear : Byte} {counters : List Word32} (hs : s.Settled) (hx : s.Executes h b)
    (own : ownCountersRead [group, clear] (s.heard .line) = .ok (s.heard .line) (groupBody group counters)) :
    exec (.countersRead h group clear) s = .next
      (s.executed h .countersRead b .ok ([group, byteOf counters.length] ++ counters.flatMap be32)) :=
  exec_executed rfl hs hx rfl (by decide) rfl own

end

/-- Settles O39: `ownCountersRead` group by group; a clear makes nothing due. -/
theorem countersReadReportsAndClears : Obligations.CountersReadReportsAndClears := by
  intro s h b group clear hs hx capacities values answer ports rules classes answers out
  have row : (Instr.countersRead h group clear).asCommand = some (h, .countersRead, [group, clear]) := rfl
  refine ⟨rfl, ?_, rfl, rfl, fun bad => ?_, fun kept => ⟨fun first => ?_, fun first => ?_, fun first => ?_,
    fun first => ?_⟩, fun cleared => ⟨fun first => ?_, fun first => ?_, fun first => ?_⟩⟩
  · simp [rules, capacities.active]
  · exact exec_executed row hs hx rfl (by decide) rfl (ownCountersRead_badValue _ bad)
  · subst kept first
    exact exec_countersRead_read hs hx rfl
  · subst kept first
    exact exec_countersRead_read hs hx rfl
  · subst kept first
    exact exec_countersRead_read hs hx rfl
  · subst kept first
    exact exec_countersRead_read hs hx rfl
  · subst cleared first
    exact exec_countersRead_clearPorts hs hx
  · subst cleared first
    have own : Cmd.countersRead.own (Ctl.ofCommand h .countersRead [1, 1]) (s.heard .line) =
      .ok (s.heard .line).clearRules (groupBody 1 (s.heard .line).rulesGroup) := rfl
    exact (exec_owned_quiet row hs hx rfl (by decide) rfl own rfl rfl rfl rfl rfl rfl rfl rfl).trans
      (congrArg _ (State.executed_setRules _))
  · subst cleared first
    have own : Cmd.countersRead.own (Ctl.ofCommand h .countersRead [3, 1]) (s.heard .line) =
      .ok (s.heard .line).clearAnswers (groupBody 3 (s.heard .line).answersGroup) := rfl
    exact (exec_owned_quiet row hs hx rfl (by decide) rfl own rfl rfl rfl rfl rfl rfl rfl rfl).trans
      (congrArg _ (State.executed_setAnswers _))

end Sys2Proof.Machine
end

section
/-! Waking the station, and the notices that are raised. -/

namespace Sys2Proof.Machine

/-! ## The active profile, changes of state, attempts and wake decisions (R7, R24, R88 to R94) -/

theorem State.activeProfile_record {s : State} {i : Fin 4} {p : Profile} (active : s.ctx.active = .record i)
    (defined : s.ctx.profiles[i.val]? = some (some p)) : s.activeProfile = p := by
  simp [State.activeProfile, active, defined]

theorem State.startAttempt_eq (s : State) (n : Nat) : s.startAttempt n = s.setWake
    { line := .asserted, phase := .attempt, attempt := n
      terms := some { mode := s.activeProfile.wakeMode, timeout := s.activeProfile.timeout,
                      retries := s.activeProfile.retries }
      attemptTimer := .running (s.activeProfile.timeout * 1000)
      pulseTimer := match s.activeProfile.wakeMode with | .pulse w => .running w | .level => .stopped } := rfl

section
variable {s : State} (cause : Cause)

theorem State.wakeDecision_awake (up : s.ctx.station = .awake ∨ s.ctx.station = .releasing ∨ s.ctx.station = .waking) :
    s.wakeDecision cause = s := by
  rcases up with station | station | station
  all_goals simp only [State.wakeDecision, station]

theorem State.wakeDecision_dozing (dozing : s.ctx.station = .dozing) :
    s.wakeDecision cause = s.setCtx { s.ctx with wakePending := true } := by
  simp only [State.wakeDecision, dozing]

theorem State.wakeDecision_asleep (asleep : s.ctx.station = .asleep) :
    s.wakeDecision cause = (s.changeState .waking cause).startAttempt 1 := by
  simp only [State.wakeDecision, asleep, State.enterWaking]

theorem State.wakeDecision_unresponsive (unresponsive : s.ctx.station = .unresponsive) :
    s.wakeDecision cause =
      if cause = .managerWake then (s.changeState .waking cause).startAttempt 1 else s := by
  simp only [State.wakeDecision, unresponsive, State.enterWaking]

end

/-- Settles O40: each definition at its cases. -/
theorem wakeDecisionFollowsTheState : Obligations.WakeDecisionFollowsTheState := by
  refine ⟨fun s => ⟨fun i p => State.activeProfile_record, fun builtIn => ?_, fun none => ?_⟩,
    fun s entered cause => rfl, fun s n => ⟨fun w pulse => ?_, fun level => ?_⟩,
    fun s cause => ⟨State.wakeDecision_awake cause,
      State.wakeDecision_dozing cause, State.wakeDecision_asleep cause, fun unresponsive => ⟨fun manager => ?_,
      fun other => ?_⟩⟩⟩
  · rw [State.activeProfile, builtIn]
    rfl
  · rw [State.activeProfile, none]
    rfl
  · rw [State.startAttempt_eq, pulse]
  · rw [State.startAttempt_eq, level]
  · rw [State.wakeDecision_unresponsive cause unresponsive, if_pos manager]
  · rw [State.wakeDecision_unresponsive cause unresponsive, if_neg other]

/-! ## WAKE (R160) -/

section
variable {s : State}

theorem ownWake_wrongState (up : s.ctx.station = .awake ∨ s.ctx.station = .waking ∨ s.ctx.station = .releasing) :
    ownWake s = { state := s, status := .wrongState, body := [s.ctx.station.code] } := by
  rcases up with station | station | station
  all_goals simp only [ownWake, station]

theorem ownWake_dozing (dozing : s.ctx.station = .dozing) :
    ownWake s = .ok (s.setCtx { s.ctx with wakePending := true }) [StationState.dozing.code] := by
  simp only [ownWake, dozing, State.wakeDecision, State.setCtx]

theorem ownWake_down (down : s.ctx.station = .asleep ∨ s.ctx.station = .unresponsive) :
    ownWake s = .ok ((s.changeState .waking .managerWake).startAttempt 1) [StationState.waking.code] := by
  have entered : s.wakeDecision .managerWake = s.enterWaking .managerWake := by
    rcases down with station | station
    · exact State.wakeDecision_asleep _ station
    · rw [State.wakeDecision_unresponsive _ station, if_pos rfl, State.enterWaking]
  have code := congrArg StationState.code (State.enterWaking_station s .managerWake)
  rcases down with station | station
  all_goals
    simp only [ownWake, station, entered, code]
    rfl

end

/-- Settles O41: `ownWake` by the station state; a sequence that begins leaves the offer of its notice due. -/
theorem wakeCommandIsTheManagersDecision : Obligations.WakeCommandIsTheManagersDecision := by
  intro s h b hs hx
  have row : (Instr.wake h).asCommand = some (h, .wake, []) := rfl
  refine ⟨fun up => ?_, fun dozing => ?_, fun down => ?_⟩
  · exact exec_executed row hs hx rfl (by decide) rfl (ownWake_wrongState (s := s.heard .line) up)
  · exact (exec_owned_quiet row hs hx rfl (by decide) rfl (ownWake_dozing (s := s.heard .line) dozing)
      rfl rfl rfl rfl rfl rfl rfl rfl).trans (congrArg _ (State.executed_setCtx _))
  · have owned := exec_owned row hs hx rfl (by decide) rfl (ownWake_down (s := s.heard .line) down)
      rfl rfl rfl rfl rfl rfl rfl
    rw [State.settleReleaseEnd_of_ne (show StationState.waking ≠ .releasing by decide)] at owned
    exact owned

/-! ## The wake timers (R95 to R97) -/

/-- A change of the wake controller makes nothing due. -/
theorem State.settle_setWake {s : State} (w : WakeController) (hs : s.nothingDue = true) :
    (s.setWake w).settle = s.setWake w :=
  State.settle_of_nothingDue hs

section
variable {s : State}

theorem exec_pulseTimerExpiry (hs : s.Settled) (high : s.pins.resetn = true) (due : s.wake.pulseTimer = .running 0) :
    exec .pulseTimerExpiry s = .next (s.setWake { s.wake with line := .released, pulseTimer := .stopped }) := by
  rw [← State.settle_setWake _ (hs high)]
  exact State.event_when_due (b := fun s => s.wake.pulseTimer.due) high ((Timer.due_iff _).2 due)

theorem attemptDue (due : s.wake.attemptTimer = .running 0) {p : Phase} (phase : s.wake.phase = p) :
    (s.wake.attemptTimer.due && s.wake.phase == p) = true :=
  Bool.and_eq_true_iff.2 ⟨(Timer.due_iff _).2 due, beq_iff_eq.2 phase⟩

theorem attemptNotDue {p : Phase} (notDue : s.wake.attemptTimer ≠ .running 0 ∨ s.wake.phase ≠ p) :
    (s.wake.attemptTimer.due && s.wake.phase == p) = false := by
  refine Bool.eq_false_iff.2 fun due => ?_
  obtain ⟨timer, phase⟩ := Bool.and_eq_true_iff.1 due
  exact notDue.elim (fun other => other ((Timer.due_iff _).1 timer)) fun other => other (beq_iff_eq.1 phase)

/-- An attempt that ends while its terms allow another: a rest. -/
theorem State.endAttempt_rest {w : WakeTerms} (terms : s.wake.terms = some w)
    (more : s.wake.attempt < 1 + w.retries) : s.endAttempt = s.setWake
      { s.wake with line := .released, pulseTimer := .stopped, phase := .rest, attemptTimer := .running 100 } := by
  have retries : s.wake.retries = w.retries := by rw [WakeController.retries, terms]; rfl
  exact if_pos (by rwa [retries])

/-- The last attempt ends: the sequence has failed. -/
theorem State.endAttempt_failed {w : WakeTerms} (terms : s.wake.terms = some w)
    (spent : 1 + w.retries ≤ s.wake.attempt) : s.endAttempt =
      ((s.setWake
        { line := .released, phase := .idle, attempt := s.wake.attempt, terms := none, attemptTimer := .stopped
          pulseTimer := .stopped }).changeState .unresponsive .attemptsSpent).raise
        (.wakeFailed s.wake.attempt s.hold.list.length) := by
  have retries : s.wake.retries = w.retries := by rw [WakeController.retries, terms]; rfl
  exact if_neg (by rw [retries]; omega)

end

/-- Settles O42: each timer's event where it is due, and none where it is not. -/
theorem wakeTimersDriveTheSequence : Obligations.WakeTimersDriveTheSequence := by
  refine ⟨fun s hs high => ⟨exec_pulseTimerExpiry hs high, fun w due phase terms => ⟨fun more => ?_, fun spent => ?_⟩,
    fun due phase => ?_⟩, fun s => ⟨fun notDue => ?_, fun notDue => ?_, fun notDue => ?_⟩⟩
  · rw [← State.settle_setWake _ (hs high), ← State.endAttempt_rest terms more]
    exact State.event_when_due (b := fun s => s.wake.attemptTimer.due && s.wake.phase == .attempt) high
      (attemptDue due phase)
  · rw [← State.endAttempt_failed terms spent]
    have failed := State.endAttempt_failed terms spent
    have settled : s.endAttempt.settle = s.endAttempt.settleOffer.settleLine := by
      rw [failed]
      exact State.settle_of_raised (hs high) rfl rfl rfl rfl rfl rfl rfl rfl rfl
    rw [← settled]
    exact State.event_when_due (b := fun s => s.wake.attemptTimer.due && s.wake.phase == .attempt) high
      (attemptDue due phase)
  · rw [State.startAttempt_eq, ← State.settle_setWake _ (hs high)]
    exact State.event_when_due (b := fun s => s.wake.attemptTimer.due && s.wake.phase == .rest) high
      (attemptDue due phase)
  · exact State.event_when_notDue (b := fun s => s.wake.pulseTimer.due)
      (Bool.eq_false_iff.2 fun due => notDue ((Timer.due_iff _).1 due))
  · exact State.event_when_notDue (b := fun s => s.wake.attemptTimer.due && s.wake.phase == .attempt)
      (attemptNotDue notDue)
  · exact State.event_when_notDue (b := fun s => s.wake.attemptTimer.due && s.wake.phase == .rest)
      (attemptNotDue notDue)

/-! ## Raises (R168, R169) -/

section
variable {u : NoticeUnit} {body : NoticeBody} {now : Word32} {st : StationState}

theorem NoticeUnit.raise_masked (masked : u.mask.getLsbD body.maskBit = false) : u.raise body now st = u := by
  simp only [NoticeUnit.raise, masked, Bool.false_eq_true, if_false]

/-- A raise of a kind that never coalesces. -/
theorem NoticeUnit.raise_other (kept : u.mask.getLsbD body.maskBit = true)
    (other : ∀ c r e, body ≠ .holdPressure c r e) : u.raise body now st = u.join body now st := by
  refine (if_pos kept).trans ?_
  cases body
  case holdPressure c r e => exact absurd rfl (other c r e)
  all_goals rfl

variable {c : HoldClass} {r e : Word32}

/-- A report that finds none of its class to join. -/
theorem NoticeUnit.raise_alone (kept : u.mask.getLsbD 2 = true) (none : ∀ n ∈ u.queue, n.coalesces c = false) :
    u.raise (.holdPressure c r e) now st = u.join (.holdPressure c r e) now st := by
  have any : u.queue.any (fun n => n.coalesces c) = false :=
    List.any_eq_false.2 fun n listed => by rw [none n listed]; decide
  exact (if_pos kept).trans (if_neg (by rw [any]; decide))

/-- A report that joins the first of its class not yet transmitted. -/
theorem NoticeUnit.raise_coalesces {before after : List Notice} {n : Notice} (kept : u.mask.getLsbD 2 = true)
    (queue : u.queue = before ++ n :: after) (joined : n.coalesces c = true)
    (first : ∀ x ∈ before, x.coalesces c = false) :
    u.raise (.holdPressure c r e) now st = { u with queue := before ++ n.addCounts r e :: after } := by
  have any : u.queue.any (fun n => n.coalesces c) = true := List.any_eq_true.2 ⟨n, by simp [queue], joined⟩
  refine (if_pos kept).trans ((if_pos any).trans ?_)
  rw [queue, coalesceIn_spec before n after joined first]

end

/-- Settles O43: the four cases of `NoticeUnit.raise`, in order. -/
theorem raiseIsSettledInFourCases : Obligations.RaiseIsSettledInFourCases := by
  intro s body u bit joins
  have maskBit : body.maskBit = bit := by cases body <;> rfl
  have join : s.notices.raise body s.time s.ctx.station = s.notices.join body s.time s.ctx.station → joins :=
    fun joined => congrArg s.setNotices joined
  have apart : ∀ (n : Notice) (c : HoldClass),
      (n.transmissions = 0 → ∀ r e, n.body ≠ .holdPressure c r e) → n.coalesces c = false := fun n c other =>
    Bool.eq_false_iff.2 fun coalesces => by
      obtain ⟨untransmitted, r, e, report⟩ := Notice.coalesces_iff.1 coalesces
      exact other untransmitted r e report
  refine ⟨fun masked => ?_, fun kept => ⟨fun other => join (NoticeUnit.raise_other (by rw [maskBit]; exact kept) other),
    fun c r e report => ⟨fun none => ?_, fun before n after r' e' queue reported untransmitted first => ?_⟩⟩⟩
  · exact congrArg s.setNotices (NoticeUnit.raise_masked (by rw [maskBit]; exact masked))
  · subst report
    exact join (NoticeUnit.raise_alone kept fun n listed => apart n c (none n listed))
  · subst report
    have added : n.addCounts r e = { n with body := .holdPressure c (r' + r) (e' + e) } := by
      simp only [Notice.addCounts, reported]
    have coalesced := NoticeUnit.raise_coalesces (now := s.time) (st := s.ctx.station) (r := r) (e := e) kept queue
      (Notice.coalesces_iff.2 ⟨untransmitted, r', e', reported⟩) fun x listed => apart x c (first x listed)
    rw [added] at coalesced
    exact congrArg s.setNotices coalesced

end Sys2Proof.Machine
end

section
/-! The notice unit's commands and events, and the resets by command. -/

namespace Sys2Proof.Machine

/-! ## NOTICE_ACK and NOTICE_MASK (R161, R172) -/

/-- A bound-only command whose owner changes the notice unit alone: the head may then be offered. -/
theorem exec_owned_notices {i : Instr} {s : State} {h : CmdHeader} {k : Cmd} {ps : List Byte} {b : Binding}
    {body : List Byte} {N : NoticeUnit} (row : i.asCommand = some (h, k, ps)) (hs : s.Settled) (hx : s.Executes h b)
    (bound : k.boundOnly = true) (notUnbind : k ≠ .unbind) (length : k.lengthOk ps.length = true)
    (own : k.own (Ctl.ofCommand h k ps) (s.heard .line) = .ok ((s.heard .line).setNotices N) body) :
    exec i s = .next ((s.executed h k b .ok body).setNotices N).settleOffer := by
  obtain ⟨-, releaseEnd, drainEnd, delivery, -, -, -⟩ := (State.nothingDue_iff s).1 (hs hx.high)
  rw [exec_owned row hs hx bound notUnbind length own rfl rfl rfl rfl rfl drainEnd delivery, State.executed_setNotices,
    State.settleReleaseEnd_of_not]
  exact releaseEnd

/-- A change of the mask alone offers nothing. -/
theorem State.settleOffer_executed_mask {s : State} {h : CmdHeader} {k : Cmd} {b : Binding} {body : List Byte}
    (mask : BitVec 4) (hs : s.nothingDue = true) (hx : s.Executes h b) :
    ((s.executed h k b .ok body).setNotices { s.notices with mask := mask }).settleOffer =
      (s.executed h k b .ok body).setNotices { s.notices with mask := mask } := by
  obtain ⟨-, -, -, -, -, -, offer⟩ := (State.nothingDue_iff s).1 hs
  have room : s.line.control.length < 4 := by have := hx.room; rwa [hx.port] at this
  exact State.settleOffer_of_not (State.offerDue_of_parts offer room rfl rfl fun _ => by rw [hx.binding]; rfl)

section
variable {u : State} {serial : Word16}

theorem ownNoticeAck_removed {n : Notice} {rest : List Notice} (queue : u.notices.queue = n :: rest)
    (same : n.serial = serial) (sent : 1 ≤ n.transmissions) :
    ownNoticeAck (be16 serial) u =
      .ok (u.setNotices { u.notices with queue := rest, timer := .stopped }) [byteOf rest.length] := by
  have read : word16At (be16 serial) 0 = serial := by
    rw [word16At, natAt_be16_nil, BitVec.ofNat_toNat, BitVec.setWidth_eq]
  simp only [ownNoticeAck, queue, read]
  rw [if_pos ⟨same, sent⟩]

theorem ownNoticeAck_stale {n : Notice} {rest : List Notice} (queue : u.notices.queue = n :: rest)
    (other : n.serial ≠ serial ∨ n.transmissions = 0) : ownNoticeAck (be16 serial) u = .refuse u .stale := by
  have read : word16At (be16 serial) 0 = serial := by
    rw [word16At, natAt_be16_nil, BitVec.ofNat_toNat, BitVec.setWidth_eq]
  simp only [ownNoticeAck, queue, read]
  refine if_neg fun ⟨same, sent⟩ => ?_
  rcases other with differs | unsent
  · exact differs same
  · omega

theorem ownNoticeAck_empty (queue : u.notices.queue = []) : ownNoticeAck (be16 serial) u = .refuse u .stale := by
  simp only [ownNoticeAck, queue]

end

/-- Settles O44: the owners' cases, and the offer that an acknowledgement leaves due. -/
theorem noticeCommandsActOnTheUnit : Obligations.NoticeCommandsActOnTheUnit := by
  intro s h b hs hx
  refine ⟨fun serial n rest queue => ⟨fun same sent => ?_, fun other => ?_⟩, fun serial queue => ?_,
    fun mask => ⟨fun small => ?_, fun large => ?_⟩⟩
  · exact exec_owned_notices rfl hs hx rfl (by decide) rfl
      (ownNoticeAck_removed (u := s.heard .line) queue same sent)
  · exact exec_executed rfl hs hx rfl (by decide) rfl (ownNoticeAck_stale (u := s.heard .line) queue other)
  · exact exec_executed rfl hs hx rfl (by decide) rfl (ownNoticeAck_empty (u := s.heard .line) queue)
  · have own : Cmd.noticeMask.own (Ctl.ofCommand h .noticeMask [mask]) (s.heard .line) =
        .ok ((s.heard .line).setNotices { s.notices with mask := mask.setWidth 4 }) [mask] :=
      if_neg (not_le.2 small)
    rw [exec_owned_notices rfl hs hx rfl (by decide) rfl own, State.settleOffer_executed_mask _ (hs hx.high) hx]
  · have own : Cmd.noticeMask.own (Ctl.ofCommand h .noticeMask [mask]) (s.heard .line) =
      .refuse (s.heard .line) .badValue := if_pos large
    exact exec_executed rfl hs hx rfl (by decide) rfl own

/-! ## Offers, retransmissions and the end of a lease (R134, R170, R171, R173) -/

/-- The offer of the head, up to the sending of its frame. -/
theorem State.noticeOffer_eq {s : State} {n : Notice} {rest : List Notice} {b : Binding}
    (queue : s.notices.queue = n :: rest) (bound : s.responder.binding = some b) :
    s.noticeOffer = (s.setNotices { s.notices with
      queue := { n with transmissions := n.transmissions + 1 } :: rest, timer := .running 2000 }).sendNotice
        (s.noticeFrame b.manager n) := by
  simp only [State.noticeOffer, queue, bound, Config.retransmitMs]

theorem State.sendNotice_up {s : State} (f : CtlFrame) (up : s.line.linkUp = true) :
    s.sendNotice f = s.setLine { s.line with control := s.line.control ++ [f] } := if_pos up

theorem State.sendNotice_down {s : State} (f : CtlFrame) (down : s.line.linkUp = false) :
    s.sendNotice f = s.setLine
      { s.line with
        counters := { s.line.counters with linkDownDiscards := s.line.counters.linkDownDiscards + 1 } } :=
  if_neg (by rw [down]; decide)

theorem exec_noticeOffer_due {s : State} (high : s.pins.resetn = true) (due : s.offerDue = true) :
    exec .noticeOffer s = .next s.noticeOffer.settle :=
  State.event_when_due (b := State.offerDue) high due

/-- Nothing can be offered from an empty queue, after four transmissions, without a binding, while the timer runs, or
to a full line control queue. -/
theorem State.offerDue_false {s : State}
    (barred : s.notices.queue = [] ∨ (∃ n rest, s.notices.queue = n :: rest ∧ 4 ≤ n.transmissions) ∨
      s.responder.binding = none ∨ s.notices.timer ≠ .stopped ∨ 4 ≤ s.line.control.length) : s.offerDue = false := by
  refine Bool.eq_false_iff.2 fun due => ?_
  obtain ⟨n, rest, b, queue, few, bound, stopped, room⟩ := s.offerDue_iff.1 due
  rcases barred with empty | ⟨n', rest', queue', spent⟩ | unbound | running | full
  · rw [queue] at empty
    cases empty
  · obtain ⟨rfl, rfl⟩ := List.cons.inj (queue.symm.trans queue')
    omega
  · rw [bound] at unbound
    cases unbound
  · exact running stopped
  · omega

theorem exec_retransmitTimerExpiry_due {s : State} (hs : s.Settled) (high : s.pins.resetn = true)
    (due : s.notices.timer = .running 0) :
    exec .retransmitTimerExpiry s = .next (s.setNotices s.notices.retransmit).settleOffer.settleLine := by
  obtain ⟨-, releaseEnd, drainEnd, delivery, -, -, -⟩ := (State.nothingDue_iff s).1 (hs high)
  have settled : (s.setNotices s.notices.retransmit).settle =
      (s.setNotices s.notices.retransmit).settleOffer.settleLine :=
    State.settle_of_raised (hs high) rfl rfl rfl rfl rfl rfl releaseEnd drainEnd delivery
  rw [← settled]
  exact State.event_when_due (b := fun s => s.notices.timer.due) high ((Timer.due_iff _).2 due)

theorem NoticeUnit.retransmit_kept {u : NoticeUnit} {n : Notice} {rest : List Notice} (queue : u.queue = n :: rest)
    (few : n.transmissions < 4) : u.retransmit = { u with timer := .stopped } := by
  simp only [NoticeUnit.retransmit, queue]
  exact if_neg (not_le.2 few)

theorem NoticeUnit.retransmit_lost {u : NoticeUnit} {n : Notice} {rest : List Notice} (queue : u.queue = n :: rest)
    (spent : 4 ≤ n.transmissions) :
    u.retransmit = { u with timer := .stopped, queue := rest, lost := u.lost + 1 } := by
  simp only [NoticeUnit.retransmit, queue]
  exact if_pos spent

/-- The end of a binding leaves a settled part settled: nothing can be offered without one. -/
theorem State.settle_endBinding {s : State} (hs : s.nothingDue = true) : s.endBinding.settle = s.endBinding := by
  obtain ⟨reset, releaseEnd, drainEnd, delivery, lineChoice, stationChoice, -⟩ := (State.nothingDue_iff s).1 hs
  refine State.settle_of_nothingDue ((State.nothingDue_iff _).2 ⟨reset, releaseEnd, drainEnd, delivery, lineChoice,
    stationChoice, State.offerDue_of_unbound (State.endBinding_binding s)⟩)

theorem exec_leaseExpiry_due {s : State} {b : Binding} (hs : s.Settled) (high : s.pins.resetn = true)
    (bound : s.responder.binding = some b) (spent : b.remaining = 0) :
    exec .leaseExpiry s = .next s.endBinding := by
  rw [← State.settle_endBinding (hs high)]
  exact State.event_when_due (b := State.leaseDue) high (s.leaseDue_iff.2 ⟨b, bound, spent⟩)

/-- Settles O45: the offer's equation and its conditions, and the two expiries. -/
theorem noticesAreSentUnderTheLease : Obligations.NoticesAreSentUnderTheLease := by
  refine ⟨fun s n rest b high queue few bound stopped room => ?_, fun s barred => ⟨?_, ?_⟩,
    fun s n rest hs high due queue => ⟨fun few => ?_, fun spent => ?_⟩, fun s other => ?_,
    fun s b hs high bound spent => exec_leaseExpiry_due hs high bound spent, fun s more => ?_,
    fun left entered cause => ⟨rfl, rfl⟩, fun attempts held => ⟨rfl, rfl⟩, fun c r e => ⟨rfl, rfl⟩,
    fun up => ⟨rfl, rfl⟩, rfl⟩
  · intro offered frame sends
    have due : s.offerDue = true := s.offerDue_iff.2 ⟨n, rest, b, queue, few, bound, stopped, room⟩
    have sent : ∀ t, s.noticeOffer = t → sends t := by
      rintro t rfl
      exact ⟨State.settleOffer_of_due due, exec_noticeOffer_due high due⟩
    have offer : s.noticeOffer = offered.sendNotice frame := State.noticeOffer_eq queue bound
    exact ⟨fun up => sent _ (offer.trans (State.sendNotice_up frame up)),
      fun down => sent _ (offer.trans (State.sendNotice_down frame down))⟩
  · exact State.settleOffer_of_not (State.offerDue_false barred)
  · exact State.event_when_notDue (b := State.offerDue) (State.offerDue_false barred)
  · rw [exec_retransmitTimerExpiry_due hs high due, NoticeUnit.retransmit_kept queue few]
  · rw [exec_retransmitTimerExpiry_due hs high due, NoticeUnit.retransmit_lost queue spent]
  · exact State.event_when_notDue (b := fun s => s.notices.timer.due)
      (Bool.eq_false_iff.2 fun due => other ((Timer.due_iff _).1 due))
  · refine State.event_when_notDue (b := State.leaseDue) (Bool.eq_false_iff.2 fun due => ?_)
    obtain ⟨b, bound, spent⟩ := s.leaseDue_iff.1 due
    exact more b bound spent

end Sys2Proof.Machine
end

section
/-! The resets by command (R141, R163). -/

namespace Sys2Proof.Machine

/-! ## RESET is placed -/

/-- A reset that waits for its own response, placed on the line port of a settled state, is not due in that event. -/
theorem State.settle_placed_reset {s : State} {h : CmdHeader} {b : Binding} (strength : Option Strength)
    (hs : s.nothingDue = true) (hx : s.Executes h b) :
    ((((s.heard .line).setResponder { s.responder with resetPending := strength }).place .line
      (s.reply h .reset .ok [])).setBinding (some (b.accept (s.reply h .reset .ok [])))).settle =
      (s.executed h .reset b .ok []).setResponder
        { (s.executed h .reset b .ok []).responder with resetPending := strength } := by
  obtain ⟨-, releaseEnd, drainEnd, delivery, lineChoice, stationChoice, offer⟩ := (State.nothingDue_iff s).1 hs
  have room : s.line.control.length < 4 := by have := hx.room; rwa [hx.port] at this
  have up : s.line.linkUp = true := by have := hx.up; rwa [hx.port] at this
  rw [State.settle_lineReply (s := s) (u := (((s.heard .line).setResponder
    { s.responder with resetPending := strength }).place .line (s.reply h .reset .ok [])).setBinding
      (some (b.accept (s.reply h .reset .ok [])))) (s.reply h .reset .ok []) up rfl ?_ releaseEnd drainEnd delivery
    stationChoice (State.lineIdle lineChoice up)]
  · refine (State.settleOffer_of_not ?_).trans rfl
    exact State.offerDue_of_room offer room rfl fun _ => by rw [hx.binding]; rfl
  · simp [State.resetDue, State.setBinding, State.place, State.reply_isResetResponse]

/-- A RESET of a known strength. -/
theorem exec_reset {s : State} {h : CmdHeader} {b : Binding} {strength : Byte} {x : Strength} (hs : s.Settled)
    (hx : s.Executes h b)
    (own : ownReset [strength] (s.heard .line) =
      .ok ((s.heard .line).setResponder { s.responder with resetPending := some x }) []) :
    exec (.reset h strength) s = .next
      ((s.executed h .reset b .ok []).setResponder
        { (s.executed h .reset b .ok []).responder with resetPending := some x }) := by
  have row : (Instr.reset h strength).asCommand = some (h, .reset, [strength]) := rfl
  have owner : Cmd.reset.own (Ctl.ofCommand h .reset [strength]) (s.heard .line) =
    .ok ((s.heard .line).setResponder { s.responder with resetPending := some x }) [] := own
  rw [exec_executes row hx rfl rfl, State.execute_eq _ _ _ _ _ (by decide), owner, hx.port, State.heard_reply]
  exact congrArg _ (State.settle_placed_reset (some x) (hs hx.high) hx)

/-- Settles O46: `ownReset` by the strength; the response in the queue keeps the reset from being due. -/
theorem resetCommandWaitsForItsResponse : Obligations.ResetCommandWaitsForItsResponse := by
  intro s h b strength hs hx done
  refine ⟨fun warm => ?_, fun cold => ?_, fun unknown => ?_⟩
  · subst warm
    exact exec_reset hs hx rfl
  · subst cold
    exact exec_reset hs hx rfl
  · have own : Cmd.reset.own (Ctl.ofCommand h .reset [strength]) (s.heard .line) =
        .refuse (s.heard .line) .badValue := by
      refine (if_neg fun zero => ?_).trans (if_neg fun one => ?_)
      · rw [show strength = 0 from zero] at unknown
        exact absurd unknown (by decide)
      · rw [show strength = 1 from one] at unknown
        exact absurd unknown (by decide)
    exact exec_executed rfl hs hx rfl (by decide) rfl own

/-! ## The reset takes effect -/

section
variable {s : State}

theorem State.resetDue_true {x : Strength} (pending : s.responder.resetPending = some x)
    (left : ∀ c ∈ s.line.control, c.isResetResponse = false) : s.resetDue = true := by
  have none : s.line.control.any CtlFrame.isResetResponse = false :=
    List.any_eq_false.2 fun c listed => by rw [left c listed]; decide
  simp [State.resetDue, pending, none]

theorem State.resetDue_false
    (waits : s.responder.resetPending = none ∨ ∃ c ∈ s.line.control, c.isResetResponse = true) :
    s.resetDue = false := by
  rcases waits with none | ⟨c, listed, response⟩
  · simp [State.resetDue, none]
  · have any : s.line.control.any CtlFrame.isResetResponse = true := List.any_eq_true.2 ⟨c, listed, response⟩
    simp [State.resetDue, any]

theorem State.takeReset_warm (pending : s.responder.resetPending = some .warm) : s.takeReset = s.warmReset := by
  simp only [State.takeReset, pending]

theorem State.takeReset_cold (pending : s.responder.resetPending = some .cold) : s.takeReset = s.coldReset := by
  simp only [State.takeReset, pending]

theorem exec_resetTakesEffect_due (high : s.pins.resetn = true) (due : s.resetDue = true) :
    exec .resetTakesEffect s = .next s.takeReset.settle :=
  State.event_when_due (b := State.resetDue) high due

/-- The completion of a transmission on the line. -/
theorem exec_lineTransmitComplete {src : LineSource} (high : s.pins.resetn = true) (tx : s.line.tx = some src) :
    exec .lineTransmitComplete s =
      .next (((s.endLineTx .completed).countTransmitted .line).leaveLine src).settle := by
  show execLineTransmitComplete s = _
  rw [execLineTransmitComplete, State.event_high _ high, tx]

end

/-- Settles O47: the response leaves the queue with its completion, and `State.settleReset` follows. -/
theorem resetTakesEffectWithItsResponse : Obligations.ResetTakesEffectWithItsResponse := by
  refine ⟨fun s r rest hs high tx queue response last => ?_, fun s high left => ⟨fun warm => ?_, fun cold => ?_⟩,
    fun s waits => ⟨State.settleReset_of_not (State.resetDue_false waits),
      State.event_when_notDue (b := State.resetDue) (State.resetDue_false waits)⟩, CtlFrame.isResetResponse_iff⟩
  · intro sent
    have completed : ((s.endLineTx .completed).countTransmitted .line).leaveLine .control = sent := by
      show s.setLine { s.line with
        tx := none
        control := s.line.control.tail
        counters := { s.line.counters with transmitted := s.line.counters.transmitted + 1 }
        lastSent := sentAfter .line s.line.lastSent s.lineTxFrame .completed } = sent
      rw [queue, List.tail_cons]
    rw [exec_lineTransmitComplete high tx, completed]
    refine ⟨fun warm => ?_, fun cold => ?_⟩
    · rw [State.settle_of_resetDue (State.resetDue_true (s := sent) warm last), State.takeReset_warm (s := sent) warm,
        State.warmReset_settle]
    · rw [State.settle_of_resetDue (State.resetDue_true (s := sent) cold last), State.takeReset_cold (s := sent) cold,
        State.coldReset_settle]
  · have due := State.resetDue_true warm left
    exact ⟨(State.settleReset_of_due due).trans (State.takeReset_warm warm), by
      rw [exec_resetTakesEffect_due high due, State.takeReset_warm warm, State.warmReset_settle]⟩
  · have due := State.resetDue_true cold left
    exact ⟨(State.settleReset_of_due due).trans (State.takeReset_cold cold), by
      rw [exec_resetTakesEffect_due high due, State.takeReset_cold cold, State.coldReset_settle]⟩

/-! ## The outcomes of R163 -/

/-- Every frame leaves the hold store. -/
theorem HoldStore.remove_all (h : HoldStore) (why : Leave) :
    h.remove (fun _ => true) why =
      { h with
        freeBlocks := h.freeBlocks + (h.list.map Descriptor.blocks).sum
        list := []
        accounts := (h.remove (fun _ => true) why).accounts } := by
  have eq := h.remove_eq (fun _ => true) why
  have all : h.list.filter (fun _ => true) = h.list := List.filter_eq_self.2 fun _ _ => rfl
  have none : h.list.filter (fun _ => !true) = [] := List.filter_eq_nil_iff.2 fun _ _ => by decide
  rwa [all, none] at eq

theorem HoldStore.remove_all_account (h : HoldStore) (why : Leave) (c : HoldClass) :
    (h.remove (fun _ => true) why).accounts.get c =
      (h.accounts.get c).leaves why (h.list.filter fun d => decide (d.cls = c)).length
        ((h.list.filter fun d => decide (d.cls = c)).map Descriptor.blocks).sum := by
  have all : h.list.filter (fun _ => true) = h.list := List.filter_eq_self.2 fun _ _ => rfl
  rw [HoldStore.remove_account, all]

section
variable (s : State)

/-- A WARM reset clears the station context but for its profiles. -/
theorem State.warmClear_ctx :
    s.warmClear.ctx =
      { station := .awake, profiles := s.ctx.profiles, active := .none, address := none, wakePending := false } := by
  simp [State.warmClear, Context.initial]

theorem State.warmClear_hold : s.warmClear.hold = s.hold.remove (fun _ => true) .purged := by
  simp [State.warmClear]

/-- A WARM reset cuts the line transmission and clears the line control queue. -/
theorem State.warmClear_line :
    s.warmClear.line =
      { s.line with
        rx := none, tx := none, control := []
        lastSent := sentAfter .line s.line.lastSent s.lineTxFrame .cutBadFcs } := by
  have frame : ((s.countReleaseCut).endStationTx .cutBadFcs).lineTxFrame = s.lineTxFrame :=
    State.lineTxFrame_congr (by simp) (by simp) (by simp) (by simp)
  simp [State.warmClear, State.endLineTx, frame]

/-- A WARM reset cuts the station transmission, counts a release it cuts, and clears the station control queue. -/
theorem State.warmClear_station :
    s.warmClear.station =
      { s.station with
        rx := none, tx := none, control := []
        releaseCut := if s.station.tx = some .release then s.station.releaseCut + 1 else s.station.releaseCut
        lastSent := sentAfter .station s.station.lastSent s.stationTxFrame .cutBadFcs } := by
  have frame : s.countReleaseCut.stationTxFrame = s.stationTxFrame :=
    State.stationTxFrame_congr (by simp [State.countReleaseCut_station]) (by simp [State.countReleaseCut_station])
      (by simp) (by simp)
  simp [State.warmClear, State.endStationTx, frame, State.countReleaseCut_station]

/-- A WARM reset empties the remaining blocks that R163 clears. -/
theorem State.warmClear_cleared :
    s.warmClear.releaseTimer = .stopped ∧ s.warmClear.wake = WakeController.initial ∧
    s.warmClear.answers = { s.answers with queue := [] } ∧ s.warmClear.transit = { toStation := [], toLine := [] } ∧
    s.warmClear.responder = { s.responder with resetPending := none } := by
  simp [State.warmClear, Transit.empty]

end

/-- Settles O48: the WARM reset block by block, the COLD one by its definition. -/
theorem resetOutcomesAreThoseOfTheTable : Obligations.ResetOutcomesAreThoseOfTheTable := by
  refine ⟨fun s => ⟨(s.hold.remove (fun _ => true) .purged).accounts, HoldStore.remove_all_account s.hold .purged, ?_⟩,
    fun s => rfl⟩
  intro cleared
  have clear : s.warmClear = cleared := by
    obtain ⟨pending, pins, straps, time, rules, notices, free⟩ := s.warmClear_keeps
    obtain ⟨timer, wake, answers, transit, responder⟩ := s.warmClear_cleared
    have emptied := s.warmClear_hold.trans (HoldStore.remove_all s.hold .purged)
    exact State.ext pending pins straps time s.warmClear_ctx rules emptied timer wake answers s.warmClear_line
      s.warmClear_station transit responder notices free
  refine ⟨fun awake => ?_, fun away => ?_⟩
  · rw [State.warmReset, if_pos awake, clear]
  · rw [State.warmReset, if_neg away, clear]

end Sys2Proof.Machine
end

section
/-! The station's commands (R11 to R15, R18, R164 to R166). -/

namespace Sys2Proof.Machine

/-! ## A station command whose owner leaves the ports alone -/

section
variable {i : Instr} {s : State} {h : CmdHeader} {k : Cmd} {ps body : List Byte}

/-- A station command that changes no more of a settled state than its context, and not the station's state. -/
theorem exec_station_ctx {c : Context} (hi : i.asCommand = some (h, k, ps)) (hs : s.Settled) (hx : s.Serves h)
    (permitted : k.permitted .station = true) (free : k.boundOnly = false) (notBind : k ≠ .bind)
    (length : k.lengthOk ps.length = true) (same : c.station = s.ctx.station)
    (own : k.own (Ctl.ofCommand h k ps) (s.heard .station) = .ok ((s.heard .station).setCtx c) body) :
    exec i s = .next ((s.withReply .station (s.reply h k .ok body)).setCtx c) := by
  have up : s.station.linkUp = true := by have := hx.up; rwa [hx.port] at this
  have room : s.station.control.length < controlCap .station := by have := hx.room; rwa [hx.port] at this
  have unchanged : (s.setCtx c).nothingDue = s.nothingDue :=
    State.nothingDue_congr same rfl rfl rfl rfl rfl rfl rfl rfl rfl rfl rfl rfl rfl rfl
  have nothing : (s.setCtx c).nothingDue = true := unchanged.trans (hs hx.high)
  rw [exec_station hi hx permitted free notBind length, own]
  exact congrArg _ (State.settle_placed (s := s.setCtx c) .station (s.reply h k .ok body) nothing up hx.noReset room)

/-- A station command whose owner moves the station to a state other than RELEASING, and to DOZING only where there is
something to drain. -/
theorem exec_station_entered {v : State} {entered : StationState} {cause : Cause}
    (hi : i.asCommand = some (h, k, ps)) (hs : s.Settled) (hx : s.Serves h)
    (permitted : k.permitted .station = true) (free : k.boundOnly = false) (notBind : k ≠ .bind)
    (length : k.lengthOk ps.length = true)
    (own : k.own (Ctl.ofCommand h k ps) (s.heard .station) = .ok (v.changeState entered cause) body)
    (same : v.station = (s.heard .station).station ∧ v.line = s.line ∧ v.responder = s.responder ∧
      v.answers = s.answers ∧ v.transit = s.transit ∧ v.unitStraps = s.unitStraps)
    (settles : entered ≠ .releasing) (drains : entered = .dozing → v.drained = false) :
    exec i s = .next ((v.changeState entered cause).setStation
      (s.withReply .station (s.reply h k .ok body)).station).settleOffer.settleLine := by
  obtain ⟨station, line, responder, answers, transit, straps⟩ := same
  have noRelease : (v.changeState entered cause).releaseEndDue = false := by simp [State.releaseEndDue, settles]
  have noDrain : (v.changeState entered cause).drainEndDue = false := by
    by_cases dozing : entered = .dozing
    · exact Bool.and_eq_false_iff.2 (.inr (drains dozing))
    · simp [State.drainEndDue, dozing]
  have moved := exec_station_moved hi hs hx permitted free notBind length own (by simpa using station)
    (by simpa using line) (by simpa using responder) (by simpa using answers) (by simpa using transit)
    (by simpa using straps) noRelease noDrain
  rwa [State.settleDelivery_of_ne (by simpa using settles)] at moved

end

/-! ## DOZE -/

section
variable {s : State}

theorem State.dozeMove_awake (awake : s.ctx.station = .awake) :
    s.dozeMove = s.changeState (if s.transit.toStation.isEmpty then .asleep else .dozing) .doze := by
  simp only [State.dozeMove, awake]

theorem State.dozeMove_releasing (releasing : s.ctx.station = .releasing) :
    s.dozeMove = (s.setReleaseTimer .stopped).changeState (if s.drained then .asleep else .dozing) .doze := by
  simp only [State.dozeMove, releasing]

theorem State.dozeMove_sleeping (sleeping : s.ctx.station = .dozing ∨ s.ctx.station = .asleep) : s.dozeMove = s := by
  rcases sleeping with dozing | asleep
  · simp only [State.dozeMove, dozing]
  · simp only [State.dozeMove, asleep]

theorem State.dozeMove_waking (waking : s.ctx.station = .waking ∨ s.ctx.station = .unresponsive) :
    s.dozeMove = s.endSequence.changeState .asleep .doze := by
  rcases waking with waking | unresponsive
  · simp only [State.dozeMove, waking]
  · simp only [State.dozeMove, unresponsive]

/-- The body of a station response after a change of the station's state. -/
theorem State.stationBody_changeState (entered : StationState) (cause : Cause) :
    (s.changeState entered cause).stationBody = [entered.code, byteOf s.heldCount] := rfl

/-- The drain condition. -/
theorem State.drained_iff : s.drained = true ↔ s.transit.toStation = [] ∧ s.delivering = none := by
  simp [State.drained]

theorem State.drained_false_iff : s.drained = false ↔ s.transit.toStation ≠ [] ∨ s.delivering ≠ none := by
  rw [← Bool.not_eq_true, State.drained_iff]
  tauto

end

/-- The state in which a Doze moves the station: the request is counted, the address and the profile are taken. -/
def State.dozed (s : State) (h : CmdHeader) (i : Fin 4) : State :=
  (s.heard .station).setCtx { s.ctx with address := some h.source, active := .record i }

section
variable {s : State} {h : CmdHeader} {index : Byte} {i : Fin 4} {p : Profile}

theorem ownDoze_badIndex (high : 4 ≤ index.toNat) :
    ownDoze h.source [index] (s.heard .station) = .refuse (s.heard .station) .badIndex := by
  have none : readFin 4 (byteAt [index] 0) = none := dif_neg (Nat.not_lt.2 high)
  simp only [ownDoze, none]

theorem ownDoze_undefined (at_i : index.toNat = i.val) (undefined : s.ctx.profiles.getD i.val none = none) :
    ownDoze h.source [index] (s.heard .station) = .refuse (s.heard .station) .profileUndefined := by
  have read : readFin 4 (byteAt [index] 0) = some i := fin_read at_i
  have undef : ((s.heard .station).ctx.profiles.getD i.val none).isNone = true := Option.isNone_iff_eq_none.2 undefined
  simp only [ownDoze, read, undef, if_true]

theorem ownDoze_defined (at_i : index.toNat = i.val) (defined : s.ctx.profiles.getD i.val none = some p) :
    ownDoze h.source [index] (s.heard .station) = .ok (s.dozed h i).dozeMove (s.dozed h i).dozeMove.stationBody := by
  have read : readFin 4 (byteAt [index] 0) = some i := fin_read at_i
  have isSome : ((s.heard .station).ctx.profiles.getD i.val none).isNone = false :=
    (congrArg Option.isNone defined).trans rfl
  simp only [ownDoze, read, isSome, Bool.false_eq_true, if_false]
  rfl

/-- A Doze that moves the station out of the state `v` that its own part has left. -/
theorem exec_doze_moved {v : State} {entered : StationState} (hs : s.Settled) (hx : s.Serves h)
    (at_i : index.toNat = i.val) (defined : s.ctx.profiles.getD i.val none = some p)
    (move : (s.dozed h i).dozeMove = v.changeState entered .doze)
    (same : v.station = (s.heard .station).station ∧ v.line = s.line ∧ v.responder = s.responder ∧
      v.answers = s.answers ∧ v.transit = s.transit ∧ v.unitStraps = s.unitStraps)
    (held : v.heldCount = s.hold.list.length) (settles : entered ≠ .releasing)
    (drains : entered = .dozing → v.drained = false) :
    exec (.doze h index) s = .next ((v.changeState entered .doze).setStation (s.withReply .station
      (s.reply h .doze .ok [entered.code, byteOf s.hold.list.length])).station).settleOffer.settleLine := by
  have own := ownDoze_defined (h := h) at_i defined
  rw [move, State.stationBody_changeState, held] at own
  exact exec_station_entered rfl hs hx rfl rfl (by decide) rfl own same settles drains

end

/-- Settles O49: `ownDoze` by the index, and `State.dozeMove` by the state it finds. -/
theorem dozeMovesTheStation : Obligations.DozeMovesTheStation := by
  intro s h index hs hx
  refine ⟨fun high => ?_, fun i at_i undefined => ?_, fun i p at_i defined => ?_⟩
  · exact exec_station_refusal rfl hs hx rfl rfl (by decide) rfl (ownDoze_badIndex high)
  · exact exec_station_refusal rfl hs hx rfl rfl (by decide) rfl (ownDoze_undefined at_i undefined)
  intro answered idle moved
  refine ⟨fun awake => ⟨fun empty => ?_, fun transit => ?_⟩, fun releasing => ⟨fun empty idle => ?_, fun busy => ?_⟩,
    fun sleeping => ?_, fun waking => ?_⟩
  · have move : (s.dozed h i).dozeMove = (s.dozed h i).changeState .asleep .doze :=
      (State.dozeMove_awake (s := s.dozed h i) awake).trans
        (congrArg (State.changeState _ · _) (if_pos (List.isEmpty_iff.2 empty)))
    have entered := exec_doze_moved hs hx at_i defined move ⟨rfl, rfl, rfl, rfl, rfl, rfl⟩ rfl (by decide) nofun
    exact entered
  · have move : (s.dozed h i).dozeMove = (s.dozed h i).changeState .dozing .doze :=
      (State.dozeMove_awake (s := s.dozed h i) awake).trans
        (congrArg (State.changeState _ · _) (if_neg fun empty => transit (List.isEmpty_iff.1 empty)))
    have entered := exec_doze_moved hs hx at_i defined move ⟨rfl, rfl, rfl, rfl, rfl, rfl⟩ rfl (by decide)
      fun _ => State.drained_false_iff.2 (.inl transit)
    exact entered
  · have move : (s.dozed h i).dozeMove = ((s.dozed h i).setReleaseTimer .stopped).changeState .asleep .doze :=
      (State.dozeMove_releasing (s := s.dozed h i) releasing).trans
        (congrArg (State.changeState _ · _) (if_pos (State.drained_iff.2 ⟨empty, idle⟩)))
    have entered := exec_doze_moved hs hx at_i defined move ⟨rfl, rfl, rfl, rfl, rfl, rfl⟩ rfl (by decide) nofun
    exact entered
  · have undrained : (s.dozed h i).drained = false := State.drained_false_iff.2 busy
    have move : (s.dozed h i).dozeMove = ((s.dozed h i).setReleaseTimer .stopped).changeState .dozing .doze :=
      (State.dozeMove_releasing (s := s.dozed h i) releasing).trans
        (congrArg (State.changeState _ · _) (if_neg (Bool.eq_false_iff.1 undrained)))
    have entered := exec_doze_moved hs hx at_i defined move ⟨rfl, rfl, rfl, rfl, rfl, rfl⟩ rfl (by decide)
      fun _ => undrained
    exact entered
  · have own := ownDoze_defined (h := h) at_i defined
    rw [State.dozeMove_sleeping (s := s.dozed h i) sleeping] at own
    exact exec_station_ctx rfl hs hx rfl rfl (by decide) rfl rfl own
  · have move := State.dozeMove_waking (s := s.dozed h i) waking
    have entered := exec_doze_moved hs hx at_i defined move ⟨rfl, rfl, rfl, rfl, rfl, rfl⟩ rfl (by decide) nofun
    exact entered

/-! ## RESUME and STATION_QUERY -/

section
variable {s : State}

theorem State.endSleep_empty (empty : s.hold.list = []) :
    s.endSleep = (s.endSequence.setCtx { s.ctx with wakePending := false }).changeState .awake .resume := by
  exact if_pos (List.isEmpty_iff.2 empty)

theorem State.endSleep_held (held : s.hold.list ≠ []) :
    s.endSleep = ((s.endSequence.setCtx { s.ctx with wakePending := false }).setReleaseTimer
      (.start s.activeProfile.releaseDelay)).changeState .releasing .resume := by
  exact if_neg fun empty => held (List.isEmpty_iff.1 empty)

theorem ownResume_away (away : s.ctx.station.away = true) :
    ownResume s = .ok s.endSleep s.endSleep.stationBody := by
  simp only [ownResume, away, if_true]

theorem ownResume_up (up : s.ctx.station.away = false) : ownResume s = .ok s s.stationBody := by
  simp only [ownResume, up, Bool.false_eq_true, if_false]

end

/-- The state a Resume leaves the station in, before it enters AWAKE or RELEASING. -/
def State.unslept (s : State) : State :=
  ((s.heard .station).setWake WakeController.initial).setCtx { s.ctx with wakePending := false }

section
variable {s : State} {h : CmdHeader}

/-- A Resume that begins a release, with the release delay's timer as started. -/
theorem exec_resume_held {timer : ReleaseTimer} (hs : s.Settled) (hx : s.Serves h) (away : s.ctx.station.away = true)
    (held : s.hold.list ≠ []) (start : ReleaseTimer.start s.activeProfile.releaseDelay = timer) :
    exec (.resume h) s = .next (((s.unslept.setReleaseTimer timer).changeState .releasing .resume).setStation
      (s.withReply .station (s.reply h .resume .ok
        [StationState.releasing.code, byteOf s.hold.list.length])).station).settleDelivery.settleOffer.settleLine := by
  have sleep : (s.heard .station).endSleep = (s.unslept.setReleaseTimer timer).changeState .releasing .resume :=
    (State.endSleep_held (s := s.heard .station) held).trans (by rw [← start]; rfl)
  have own := ownResume_away (s := s.heard .station) away
  rw [sleep] at own
  refine exec_station_moved rfl hs hx rfl rfl (by decide) rfl own rfl rfl rfl rfl rfl rfl ?_ ?_
  · have filled : s.hold.list.isEmpty = false := List.isEmpty_eq_false_iff.2 held
    exact Bool.and_eq_false_iff.2 (.inr filled)
  · simp [State.drainEndDue]

end

/-- Settles O50: the end of the sleep, and the empty owners of the other cases. -/
theorem resumeEndsTheSleep : Obligations.ResumeEndsTheSleep := by
  intro s h hs hx answered woken
  refine ⟨fun away empty => ?_, fun away held => ⟨fun n delay => ?_, fun delay => ?_⟩, fun up => ?_, ?_⟩
  · have own := ownResume_away (s := s.heard .station) away
    rw [State.endSleep_empty (s := s.heard .station) empty] at own
    have entered := exec_station_entered (i := .resume h) (k := .resume) (ps := []) rfl hs hx rfl rfl (by decide) rfl
      own ⟨rfl, rfl, rfl, rfl, rfl, rfl⟩ (by decide) nofun
    exact entered
  · rw [exec_resume_held (timer := .running (n + 1)) hs hx away held (by rw [delay]; rfl)]
    refine congrArg _ (congrArg _ (congrArg _ (State.settleDelivery_of_not ?_)))
    simp [State.deliveryDue]
  · exact exec_resume_held (timer := .expired) hs hx away held (by rw [delay]; rfl)
  · exact exec_station_ctx rfl hs hx rfl rfl (by decide) rfl rfl (ownResume_up (s := s.heard .station) up)
  · exact exec_station_ctx rfl hs hx rfl rfl (by decide) rfl rfl rfl

end Sys2Proof.Machine
end

section
/-! The part's own steps and the egress arbiters (R16 to R19, R75, R76, R117, R119). -/

namespace Sys2Proof.Machine

/-! ## One of the part's own steps, at the end of an event and as an event of its own -/

section
variable {s t : State} {b : State → Bool} {f : State → State}

/-- An own step that is due takes place at the end of an event, and as an event. -/
theorem State.ownStep_due (high : s.pins.resetn = true) (due : b s = true) (step : f s = t) :
    s.when (b s) f = t ∧ (s.event fun s => s.when (b s) fun s => (f s).settle) = .next t.settle := by
  subst step
  exact ⟨State.when_true f due, State.event_when_due high due⟩

/-- An own step that is not due changes nothing, either way. -/
theorem State.ownStep_notDue (notDue : b s = false) :
    s.when (b s) f = s ∧ (s.event fun s => s.when (b s) fun s => (f s).settle) = .next s :=
  ⟨State.when_false f notDue, State.event_when_notDue notDue⟩

end

/-! ## Where each own step is due -/

section
variable {s : State}

theorem State.drainEndDue_iff :
    s.drainEndDue = true ↔ s.ctx.station = .dozing ∧ s.transit.toStation = [] ∧ s.delivering = none := by
  rw [State.drainEndDue, Bool.and_eq_true, beq_iff_eq, State.drained_iff]

theorem State.releaseEndDue_iff : s.releaseEndDue = true ↔ s.ctx.station = .releasing ∧ s.hold.list = [] := by
  rw [State.releaseEndDue, Bool.and_eq_true, beq_iff_eq, List.isEmpty_iff]

theorem State.deliveryDue_iff :
    s.deliveryDue = true ↔ s.ctx.station = .releasing ∧ s.releaseTimer = .expired ∧ s.transit.toStation = [] ∧
      s.hold.list ≠ [] ∧ s.delivering = none := by
  simp [State.deliveryDue, and_assoc]

theorem State.lineChoiceDue_iff :
    s.lineChoiceDue = true ↔ s.line.tx = none ∧ s.line.linkUp = true ∧
      ¬ (s.line.control = [] ∧ s.answers.queue = [] ∧ s.transit.toLine = []) := by
  simp only [State.lineChoiceDue, Bool.and_eq_true, Bool.not_eq_true', ← Bool.not_eq_true, List.isEmpty_iff,
    Option.isNone_iff_eq_none, and_assoc]

theorem State.stationChoiceDue_iff :
    s.stationChoiceDue = true ↔ s.station.tx = none ∧ s.station.linkUp = true ∧
      ¬ (s.station.control = [] ∧ s.delivering = none ∧ s.transit.toStation = []) := by
  simp only [State.stationChoiceDue, Bool.and_eq_true, Bool.not_eq_true', ← Bool.not_eq_true, List.isEmpty_iff,
    Option.isNone_iff_eq_none, and_assoc]

/-- The delivery of a hold list's head. -/
theorem State.beginDelivery_cons {d : Descriptor} {rest : List Descriptor} (held : s.hold.list = d :: rest) :
    s.beginDelivery = s.setHold { s.hold with list := { d with state := .delivering } :: rest } := by
  rw [State.beginDelivery, HoldStore.beginDelivery, held]

theorem State.drainEnd_asleep (flag : s.ctx.wakePending = false) : s.drainEnd = s.changeState .asleep .drainEnd := by
  rw [State.drainEnd, flag]
  rfl

theorem State.drainEnd_waking (flag : s.ctx.wakePending = true) :
    s.drainEnd =
      ((s.setCtx { s.ctx with wakePending := false }).changeState .waking .drainEnd).startAttempt 1 := by
  rw [State.drainEnd, flag]
  rfl

end

/-- Settles O51: each own step by its condition and its definition. -/
theorem releaseAndDrainSteps : Obligations.ReleaseAndDrainSteps := by
  refine ⟨fun s high => ⟨fun dozing empty idle => ⟨fun flag => ?_, fun flag => ?_⟩, fun releasing empty => ?_,
    fun d rest releasing expired empty held idle => ?_, fun zero => ?_⟩,
    fun s => ⟨fun not => ?_, fun not => ?_, fun not => ?_, fun not => ?_⟩, fun s => rfl⟩
  · exact State.ownStep_due (b := State.drainEndDue) high (State.drainEndDue_iff.2 ⟨dozing, empty, idle⟩)
      (State.drainEnd_asleep flag)
  · exact State.ownStep_due (b := State.drainEndDue) high (State.drainEndDue_iff.2 ⟨dozing, empty, idle⟩)
      (State.drainEnd_waking flag)
  · exact State.ownStep_due (b := State.releaseEndDue) (f := State.releaseEnd) high
      (State.releaseEndDue_iff.2 ⟨releasing, empty⟩) rfl
  · have filled : s.hold.list ≠ [] := held ▸ List.cons_ne_nil d rest
    exact State.ownStep_due (b := State.deliveryDue) high
      (State.deliveryDue_iff.2 ⟨releasing, expired, empty, filled, idle⟩) (State.beginDelivery_cons held)
  · exact State.event_when_due (b := fun s => s.releaseTimer == .running 0) high (beq_iff_eq.2 zero)
  · refine State.ownStep_notDue (b := State.drainEndDue) (Bool.eq_false_iff.2 fun due => ?_)
    obtain ⟨dozing, empty, idle⟩ := State.drainEndDue_iff.1 due
    tauto
  · refine State.ownStep_notDue (b := State.releaseEndDue) (Bool.eq_false_iff.2 fun due => ?_)
    obtain ⟨releasing, empty⟩ := State.releaseEndDue_iff.1 due
    tauto
  · refine State.ownStep_notDue (b := State.deliveryDue) (Bool.eq_false_iff.2 fun due => ?_)
    obtain ⟨releasing, expired, empty, filled, idle⟩ := State.deliveryDue_iff.1 due
    tauto
  · exact State.event_when_notDue (b := fun s => s.releaseTimer == .running 0) (beq_eq_false_iff_ne.2 not)

/-! ## The arbiters' choices -/

section
variable {s : State}

theorem State.lineChoice_control (control : s.line.control ≠ []) :
    s.lineChoice = s.setLine { s.line with tx := some .control } := by
  simp [State.lineChoice, control]

theorem State.lineChoice_answer (control : s.line.control = []) (answers : s.answers.queue ≠ []) :
    s.lineChoice = s.setLine { s.line with tx := some .answer } := by
  simp [State.lineChoice, control, answers]

theorem State.lineChoice_transit (control : s.line.control = []) (answers : s.answers.queue = []) :
    s.lineChoice = s.setLine { s.line with tx := some .transit } := by
  simp [State.lineChoice, control, answers]

theorem State.stationChoice_control (control : s.station.control ≠ []) :
    s.stationChoice = s.setStation { s.station with tx := some .control } := by
  simp [State.stationChoice, control]

theorem State.stationChoice_release (control : s.station.control = []) (delivering : s.delivering ≠ none) :
    s.stationChoice = s.setStation { s.station with tx := some .release } := by
  simp [State.stationChoice, control, Option.isSome_iff_ne_none.2 delivering]

theorem State.stationChoice_transit (control : s.station.control = []) (delivering : s.delivering = none) :
    s.stationChoice = s.setStation { s.station with tx := some .transit } := by
  simp [State.stationChoice, control, delivering]

end

/-- Settles O52: both arbiters where they are due, by what waits first, and where they are not. -/
theorem arbitersChooseInOrder : Obligations.ArbitersChooseInOrder := by
  refine ⟨fun s high idle up => ?_, fun s high idle up => ?_, fun s => ⟨fun not => ?_, fun not => ?_⟩⟩
  · have begins {t : State}
        (waits : ¬ (s.line.control = [] ∧ s.answers.queue = [] ∧ s.transit.toLine = [])) (choice : s.lineChoice = t) :
        s.settleLine = t ∧ exec .lineTransmitStart s = .next t.settle :=
      State.ownStep_due (b := State.lineChoiceDue) high (State.lineChoiceDue_iff.2 ⟨idle, up, waits⟩) choice
    refine ⟨fun control => ?_, fun control answers => ?_, fun control answers transit => ?_⟩
    · exact begins (fun none => control none.1) (State.lineChoice_control control)
    · exact begins (fun none => answers none.2.1) (State.lineChoice_answer control answers)
    · exact begins (fun none => transit none.2.2) (State.lineChoice_transit control answers)
  · have begins {t : State}
        (waits : ¬ (s.station.control = [] ∧ s.delivering = none ∧ s.transit.toStation = []))
        (choice : s.stationChoice = t) :
        s.settleStation = t ∧ exec .stationTransmitStart s = .next t.settle :=
      State.ownStep_due (b := State.stationChoiceDue) high (State.stationChoiceDue_iff.2 ⟨idle, up, waits⟩) choice
    refine ⟨fun control => ?_, fun control delivering => ?_, fun control delivering transit => ?_⟩
    · exact begins (fun none => control none.1) (State.stationChoice_control control)
    · exact begins (fun none => delivering none.2.1) (State.stationChoice_release control delivering)
    · exact begins (fun none => transit none.2.2) (State.stationChoice_transit control delivering)
  · refine State.ownStep_notDue (b := State.lineChoiceDue) (Bool.eq_false_iff.2 fun due => ?_)
    obtain ⟨idle, up, waits⟩ := State.lineChoiceDue_iff.1 due
    rcases not with busy | down | none
    · exact busy idle
    · exact absurd up (by simp [down])
    · exact waits none
  · refine State.ownStep_notDue (b := State.stationChoiceDue) (Bool.eq_false_iff.2 fun due => ?_)
    obtain ⟨idle, up, waits⟩ := State.stationChoiceDue_iff.1 due
    rcases not with busy | down | none
    · exact busy idle
    · exact absurd up (by simp [down])
    · exact waits none

end Sys2Proof.Machine
end

section
/-! The completion of a transmission (R50, R78, R107, R117 to R119, R126). -/

namespace Sys2Proof.Machine

/-! ## The record of a completed transmission -/

/-- The state after the line transmission of a frame completed, before the frame leaves its queue. -/
def State.lineSent (s : State) (f : Frame) : State :=
  s.setLine
    { s.line with
      tx := none
      counters := { s.line.counters with transmitted := s.line.counters.transmitted + 1 }
      lastSent := { s.line.lastSent with last := some { ending := .completed, frame := f, bytes := f } } }

/-- The state after the station transmission of a frame completed, before the frame leaves its source. -/
def State.stationSent (s : State) (f : Frame) : State :=
  s.setStation
    { s.station with
      tx := none
      counters := { s.station.counters with transmitted := s.station.counters.transmitted + 1 }
      lastSent := { s.station.lastSent with last := some { ending := .completed, frame := f, bytes := f } } }

section
variable {s : State} {f : Frame}

theorem State.endLineTx_completed (frame : s.lineTxFrame = some f) :
    (s.endLineTx .completed).countTransmitted .line = s.lineSent f := by
  rw [State.endLineTx, frame]
  rfl

theorem State.endStationTx_completed (frame : s.stationTxFrame = some f) :
    (s.endStationTx .completed).countTransmitted .station = s.stationSent f := by
  rw [State.endStationTx, frame]
  rfl

/-- The completion of a line transmission, by the frame that was sent. -/
theorem exec_lineTransmitComplete_sent {src : LineSource} (high : s.pins.resetn = true) (tx : s.line.tx = some src)
    (frame : s.lineTxFrame = some f) :
    exec .lineTransmitComplete s = .next ((s.lineSent f).leaveLine src).settle := by
  rw [exec_lineTransmitComplete high tx, State.endLineTx_completed frame]

/-- The completion of a station transmission, by the frame that was sent. -/
theorem exec_stationTransmitComplete_sent {src : StationSource} (high : s.pins.resetn = true)
    (tx : s.station.tx = some src) (frame : s.stationTxFrame = some f) :
    exec .stationTransmitComplete s = .next ((s.stationSent f).leaveStation src).settle := by
  show execStationTransmitComplete s = _
  rw [execStationTransmitComplete, State.event_high _ high, tx]
  exact congrArg (fun t : State => Host.Outcome.next (t.leaveStation src).settle) (State.endStationTx_completed frame)

theorem exec_lineTransmitComplete_idle (idle : s.line.tx = none) : exec .lineTransmitComplete s = .next s := by
  show execLineTransmitComplete s = _
  rw [execLineTransmitComplete, State.event, idle]
  exact congrArg _ (ite_self s)

theorem exec_stationTransmitComplete_idle (idle : s.station.tx = none) :
    exec .stationTransmitComplete s = .next s := by
  show execStationTransmitComplete s = _
  rw [execStationTransmitComplete, State.event, idle]
  exact congrArg _ (ite_self s)

/-! ## The frame sent, by its source -/

theorem State.lineTxFrame_control {c : CtlFrame} {rest : List CtlFrame} (tx : s.line.tx = some .control)
    (queue : s.line.control = c :: rest) : s.lineTxFrame = some c.wire := by
  simp [State.lineTxFrame, tx, queue]

theorem State.lineTxFrame_answer {rest : List Frame} (tx : s.line.tx = some .answer)
    (queue : s.answers.queue = f :: rest) : s.lineTxFrame = some f := by
  simp [State.lineTxFrame, tx, queue]

theorem State.lineTxFrame_transit {rest : List Frame} (tx : s.line.tx = some .transit)
    (queue : s.transit.toLine = f :: rest) : s.lineTxFrame = some f := by
  simp [State.lineTxFrame, tx, queue]

theorem State.stationTxFrame_control {c : CtlFrame} {rest : List CtlFrame} (tx : s.station.tx = some .control)
    (queue : s.station.control = c :: rest) : s.stationTxFrame = some c.wire := by
  simp [State.stationTxFrame, tx, queue]

theorem State.stationTxFrame_release {d : Descriptor} (tx : s.station.tx = some .release)
    (delivering : s.delivering = some d) : s.stationTxFrame = some d.frame := by
  simp [State.stationTxFrame, tx, delivering]

theorem State.stationTxFrame_transit {rest : List Frame} (tx : s.station.tx = some .transit)
    (queue : s.transit.toStation = f :: rest) : s.stationTxFrame = some f := by
  simp [State.stationTxFrame, tx, queue]

end

/-! ## The frame leaves its source -/

section
variable {s : State}

theorem State.leaveLine_control {c : CtlFrame} {rest : List CtlFrame} (queue : s.line.control = c :: rest) :
    s.leaveLine .control = s.setLine { s.line with control := rest } := by
  rw [State.leaveLine, queue, List.tail_cons]

theorem State.leaveLine_answer {f : Frame} {rest : List Frame} (queue : s.answers.queue = f :: rest) :
    s.leaveLine .answer = s.setAnswers { s.answers with queue := rest, sent := s.answers.sent + 1 } := by
  rw [State.leaveLine, queue, List.tail_cons]

theorem State.leaveLine_transit {f : Frame} {rest : List Frame} (queue : s.transit.toLine = f :: rest) :
    s.leaveLine .transit = s.setTransit { s.transit with toLine := rest } := by
  rw [State.leaveLine, queue, List.tail_cons]

theorem State.leaveStation_control {c : CtlFrame} {rest : List CtlFrame} (queue : s.station.control = c :: rest) :
    s.leaveStation .control = s.setStation { s.station with control := rest } := by
  rw [State.leaveStation, queue, List.tail_cons]

theorem State.leaveStation_release {before after : List Descriptor} {d : Descriptor}
    (list : s.hold.list = before ++ d :: after) (delivering : d.state = .delivering)
    (held : ∀ x ∈ before, x.state = .held) :
    s.leaveStation .release = s.setHold ({ s.hold with list := before ++ after }.free .delivered d) := by
  have sel : d.isDelivering = true := beq_iff_eq.2 delivering
  have others : ∀ x ∈ before, x.isDelivering = false := fun x hx => by simp [Descriptor.isDelivering, held x hx]
  rw [State.leaveStation, HoldStore.removeFirst_eq .delivered list sel others]

theorem State.leaveStation_transit {f : Frame} {rest : List Frame} (queue : s.transit.toStation = f :: rest) :
    s.leaveStation .transit = s.setTransit { s.transit with toStation := rest } := by
  rw [State.leaveStation, queue, List.tail_cons]

end

/-! ## A control frame on the wire -/

/-- A control frame's bytes before their padding: the header, most significant byte first, and the body. -/
def CtlFrame.content (c : CtlFrame) : List Byte :=
  macBytes c.dst ++ macBytes c.src ++ [0xB5, 0x9E, 1, c.kind, c.code, c.status] ++ be16 c.seq ++ be16 c.tag ++
    nat16 c.body.length ++ c.body

theorem CtlFrame.wire_eq (c : CtlFrame) : c.wire = closed (padTo 60 c.content) := by
  have controlType : be16 Config.controlType = [0xB5, 0x9E] := by decide
  simp [CtlFrame.wire, CtlFrame.content, controlType]

theorem CtlFrame.content_length (c : CtlFrame) : c.content.length = 24 + c.body.length := by
  simp [CtlFrame.content, be16, nat16]
  omega

theorem CtlFrame.wire_length (c : CtlFrame) : c.wire.length = max 60 (24 + c.body.length) + 4 := by
  rw [CtlFrame.wire_eq, closed_length, padTo_length, CtlFrame.content_length]

/-- Settles O53: the frame by its source, and its departure by the definition of each queue. -/
theorem completionTakesTheFrameOut : Obligations.CompletionTakesTheFrameOut := by
  refine ⟨fun s high => ⟨fun c rest tx queue => ?_, fun f rest tx queue => ?_, fun f rest tx queue => ?_⟩,
    fun s high => ⟨fun c rest tx queue => ?_, fun before after d tx list delivering held => ?_,
      fun f rest tx queue => ?_⟩,
    fun s => ⟨exec_lineTransmitComplete_idle, exec_stationTransmitComplete_idle⟩,
    fun c => ⟨c.content_length, ?_, c.wire_eq, fun short => ?_⟩⟩
  · rw [exec_lineTransmitComplete_sent high tx (State.lineTxFrame_control tx queue)]
    exact congrArg (Host.Outcome.next ∘ State.settle) (State.leaveLine_control (s := s.lineSent c.wire) queue)
  · rw [exec_lineTransmitComplete_sent high tx (State.lineTxFrame_answer tx queue)]
    exact congrArg (Host.Outcome.next ∘ State.settle) (State.leaveLine_answer (s := s.lineSent f) queue)
  · rw [exec_lineTransmitComplete_sent high tx (State.lineTxFrame_transit tx queue)]
    exact congrArg (Host.Outcome.next ∘ State.settle) (State.leaveLine_transit (s := s.lineSent f) queue)
  · rw [exec_stationTransmitComplete_sent high tx (State.stationTxFrame_control tx queue)]
    exact congrArg (Host.Outcome.next ∘ State.settle) (State.leaveStation_control (s := s.stationSent c.wire) queue)
  · have found : s.delivering = some d := State.delivering_of_parts list delivering held
    rw [exec_stationTransmitComplete_sent high tx (State.stationTxFrame_release tx found)]
    exact congrArg (Host.Outcome.next ∘ State.settle)
      (State.leaveStation_release (s := s.stationSent d.frame) list delivering held)
  · rw [exec_stationTransmitComplete_sent high tx (State.stationTxFrame_transit tx queue)]
    exact congrArg (Host.Outcome.next ∘ State.settle) (State.leaveStation_transit (s := s.stationSent f) queue)
  · rw [c.wire_length]
    omega
  · have length := padTo_length 60 c.content
    rw [c.content_length] at length
    rw [c.wire_eq]
    exact intakeOk_closed (by omega) (by omega)

end Sys2Proof.Machine
end

section
/-! The link events of both ports (R20 to R23, R51, R64, R81, R111, R112, R121, R122, R174). -/

namespace Sys2Proof.Machine

/-! ## The line port -/

/-- A reception abandoned at the line port, if there was one. -/
theorem State.abandon_line (s : State) (arriving : Option Frame) :
    s.abandon .line arriving = s.setLine
      { s.line with
        rx := none
        counters := { s.line.counters with
          intakeErrors := if arriving.isSome || s.line.rx.isSome then s.line.counters.intakeErrors + 1
            else s.line.counters.intakeErrors } } := by
  cases receiving : arriving.isSome || s.line.rx.isSome with
  | true => exact if_pos receiving
  | false =>
    have nothing : s.line.rx = none := Option.isNone_iff_eq_none.1 (by
      rw [← Option.not_isSome, (Bool.or_eq_false_iff.1 receiving).2]
      rfl)
    refine (if_neg (Bool.eq_false_iff.1 receiving)).trans ?_
    simp [State.setLine, ← nothing]

section
variable {s : State}

theorem exec_lineLinkLoss_up (arriving : Option Frame) (high : s.pins.resetn = true) (up : s.line.linkUp = true) :
    exec (.lineLinkLoss arriving) s =
      .next ((s.abandon .line arriving).loseLine.settleReset.lineLinkEvent false).settle :=
  State.event_when_due (b := fun s => s.line.linkUp) high up

theorem exec_lineLinkRegain_down (high : s.pins.resetn = true) (down : s.line.linkUp = false) :
    exec .lineLinkRegain s =
      .next (((s.setLine { s.line with linkUp := true }).setPins { s.pins with linkL := true }).lineLinkEvent
        true).settle :=
  State.event_when_due (b := fun s => !s.line.linkUp) high (congrArg Bool.not down)

/-- A line link event in a state that decides on a wake. -/
theorem State.lineLinkEvent_deciding (up : Bool)
    (deciding : s.ctx.station = .dozing ∨ s.ctx.station = .asleep ∨ s.ctx.station = .unresponsive) :
    s.lineLinkEvent up =
      if s.activeProfile.wakeOnLink then (s.raise (.lineLink up)).wakeDecision .linkWake
      else s.raise (.lineLink up) := by
  have raised : (s.raise (.lineLink up)).ctx.station = s.ctx.station := by simp
  rw [State.lineLinkEvent]
  rcases deciding with dozing | asleep | unresponsive
  · simp only [raised, dozing]
    rfl
  · simp only [raised, asleep]
    rfl
  · simp only [raised, unresponsive]
    rfl

theorem State.lineLinkEvent_not_deciding (up : Bool)
    (other : ¬ (s.ctx.station = .dozing ∨ s.ctx.station = .asleep ∨ s.ctx.station = .unresponsive)) :
    s.lineLinkEvent up = s.raise (.lineLink up) := by
  have raised : (s.raise (.lineLink up)).ctx.station = s.ctx.station := by simp
  rw [State.lineLinkEvent]
  cases state : s.ctx.station with
  | awake => simp only [raised, state]
  | waking => simp only [raised, state]
  | releasing => simp only [raised, state]
  | dozing => exact absurd (.inl state) other
  | asleep => exact absurd (.inr (.inl state)) other
  | unresponsive => exact absurd (.inr (.inr state)) other

end

/-- Settles O54: the port's work at the loss, and `State.lineLinkEvent` by the station's state. -/
theorem lineLinkEvents : Obligations.LineLinkEvents := by
  refine ⟨fun s arriving high up => ?_, fun s high down => exec_lineLinkRegain_down high down, fun s up => ?_,
    fun s arriving => ⟨fun down => State.event_when_notDue (b := fun s => s.line.linkUp) down,
      fun up => State.event_when_notDue (b := fun s => !s.line.linkUp) (congrArg Bool.not up)⟩⟩
  · intro receiving queued lost
    have lose : (s.abandon .line arriving).loseLine = lost := by
      rw [State.abandon_line]
      rfl
    rw [exec_lineLinkLoss_up arriving high up, lose]
  · intro raised deciding
    refine ⟨fun decides wakes => ?_, fun decides wakes => ?_, fun other => ?_⟩
    · exact (State.lineLinkEvent_deciding up decides).trans (if_pos wakes)
    · exact (State.lineLinkEvent_deciding up decides).trans (if_neg (Bool.eq_false_iff.1 wakes))
    · exact State.lineLinkEvent_not_deciding up other

/-! ## The station port -/

/-- A reception abandoned at the station port, if there was one. -/
theorem State.abandon_station (s : State) (arriving : Option Frame) :
    s.abandon .station arriving = s.setStation
      { s.station with
        rx := none
        counters := { s.station.counters with
          intakeErrors := if arriving.isSome || s.station.rx.isSome then s.station.counters.intakeErrors + 1
            else s.station.counters.intakeErrors } } := by
  cases receiving : arriving.isSome || s.station.rx.isSome with
  | true => exact if_pos receiving
  | false =>
    have nothing : s.station.rx = none := Option.isNone_iff_eq_none.1 (by
      rw [← Option.not_isSome, (Bool.or_eq_false_iff.1 receiving).2]
      rfl)
    refine (if_neg (Bool.eq_false_iff.1 receiving)).trans ?_
    simp [State.setStation, ← nothing]

/-- The station port after its link was lost. -/
theorem State.loseStation_port (s : State) :
    s.loseStation.station =
      { linkUp := false, rx := s.station.rx, tx := none, control := []
        counters := { s.station.counters with
          linkDownDiscards := s.station.counters.linkDownDiscards +
            BitVec.ofNat 32 (s.station.control.length + s.transit.toStation.length) }
        releaseCut := if s.station.tx = some .release then s.station.releaseCut + 1 else s.station.releaseCut
        lastSent := sentAfter .station s.station.lastSent s.stationTxFrame .stoppedAtLoss } := by
  have counted : ∀ n, (s.countLinkDown .station n).station =
      { s.station with
        counters := { s.station.counters with
          linkDownDiscards := s.station.counters.linkDownDiscards + BitVec.ofNat 32 n } } := fun _ => rfl
  have frame : ∀ n, (s.countLinkDown .station n).countReleaseCut.stationTxFrame = s.stationTxFrame := fun n =>
    State.stationTxFrame_congr (by simp [State.countReleaseCut_station, counted])
      (by simp [State.countReleaseCut_station, counted]) (by simp) (by simp)
  simp [State.loseStation, State.endStationTx, frame, State.countReleaseCut_station, counted]

/-- What else a station link loss changes: the L→S transit queue and the input of the link. -/
theorem State.loseStation_around (s : State) :
    s.loseStation.transit = { s.transit with toStation := [] } ∧ s.loseStation.line = s.line ∧
    s.loseStation.pins = { s.pins with linkS := false } := by
  simp [State.loseStation, State.countLinkDown, State.mapCounters]

/-- The state after a station link loss, but for a DELIVERING frame's return. -/
def State.stationLost (s : State) (arriving : Option Frame) : State :=
  ((s.setStation
    { linkUp := false, rx := none, tx := none, control := []
      counters := { s.station.counters with
        intakeErrors :=
          if arriving.isSome || s.station.rx.isSome then s.station.counters.intakeErrors + 1
          else s.station.counters.intakeErrors
        linkDownDiscards := s.station.counters.linkDownDiscards +
          BitVec.ofNat 32 (s.station.control.length + s.transit.toStation.length) }
      releaseCut := if s.station.tx = some .release then s.station.releaseCut + 1 else s.station.releaseCut
      lastSent := sentAfter .station s.station.lastSent s.stationTxFrame .stoppedAtLoss }).setTransit
    { s.transit with toStation := [] }).setPins { s.pins with linkS := false }

theorem State.loseStation_abandon (s : State) (arriving : Option Frame) :
    (s.abandon .station arriving).loseStation =
      (s.stationLost arriving).setHold (s.hold.cutWithReturn s.time) := by
  rw [State.abandon_station]
  generalize given : s.setStation _ = t
  obtain ⟨pending, straps, time, ctx, rules, timer, wake, answers, responder, notices, free⟩ := t.loseStation_keeps
  obtain ⟨transit, line, pins⟩ := t.loseStation_around
  have station := t.loseStation_port
  have hold := t.loseStation_hold
  subst given
  exact State.ext pending pins straps time ctx rules hold timer wake answers line station transit responder notices free

section
variable {s : State}

theorem exec_stationLinkLoss_up (arriving : Option Frame) (high : s.pins.resetn = true)
    (up : s.station.linkUp = true) :
    exec (.stationLinkLoss arriving) s = .next (s.abandon .station arriving).loseStation.sleepAtLoss.settle :=
  State.event_when_due (b := fun s => s.station.linkUp) high up

theorem exec_stationLinkRegain_down (high : s.pins.resetn = true) (down : s.station.linkUp = false) :
    exec .stationLinkRegain s =
      .next ((s.setStation { s.station with linkUp := true }).setPins { s.pins with linkS := true }).settle :=
  State.event_when_due (b := fun s => !s.station.linkUp) high (congrArg Bool.not down)

/-! ## The sleep at a station link loss -/

theorem State.sleepAtLoss_awake (awake : s.ctx.station = .awake) :
    s.sleepAtLoss = (s.setCtx { s.ctx with active := s.ctx.fallback }).changeState .asleep .stationLinkDown := by
  simp only [State.sleepAtLoss, awake]

theorem State.sleepAtLoss_releasing (releasing : s.ctx.station = .releasing) :
    s.sleepAtLoss = ((s.setReleaseTimer .stopped).setCtx { s.ctx with active := s.ctx.fallback }).changeState .asleep
      .stationLinkDown := by
  simp only [State.sleepAtLoss, releasing]

theorem State.sleepAtLoss_dozing (dozing : s.ctx.station = .dozing) :
    s.sleepAtLoss =
      if s.ctx.wakePending then (s.setCtx { s.ctx with wakePending := false }).enterWaking .stationLinkDown
      else s.changeState .asleep .stationLinkDown := by
  simp only [State.sleepAtLoss, dozing]

theorem State.sleepAtLoss_sleeping
    (sleeping : s.ctx.station = .asleep ∨ s.ctx.station = .waking ∨ s.ctx.station = .unresponsive) :
    s.sleepAtLoss = s := by
  rcases sleeping with asleep | waking | unresponsive
  · simp only [State.sleepAtLoss, asleep]
  · simp only [State.sleepAtLoss, waking]
  · simp only [State.sleepAtLoss, unresponsive]

end

/-! ## A cut with return -/

section
variable {h : HoldStore}

/-- Where nothing is DELIVERING, a cut returns nothing. -/
theorem HoldStore.cutWithReturn_of_held (now : Word32) (held : ∀ d ∈ h.list, d.state = .held) :
    h.cutWithReturn now = h := by
  have none : h.list.find? Descriptor.isDelivering = none :=
    List.find?_eq_none.2 fun d listed => by simp [Descriptor.isDelivering, held d listed]
  rw [HoldStore.cutWithReturn, none]

/-- The delivering head returns to HELD. -/
theorem HoldStore.returnHeld_cons {d : Descriptor} {rest : List Descriptor} (list : h.list = d :: rest)
    (held : ∀ x ∈ rest, x.state = .held) :
    h.returnHeld = { h with list := { d with state := .held } :: rest } := by
  have same : rest.map (fun x => { x with state := DescState.held }) = rest :=
    (List.map_congr_left fun x hx => by rw [← held x hx, id]).trans (List.map_id rest)
  rw [HoldStore.returnHeld, list, List.map_cons, same]

/-- The store at a cut of its delivering head. -/
theorem HoldStore.cutWithReturn_cons {d : Descriptor} {rest : List Descriptor} (now : Word32)
    (list : h.list = d :: rest) (delivering : d.state = .delivering) (held : ∀ x ∈ rest, x.state = .held) :
    h.cutWithReturn now =
      if d.outlived (h.configs.get d.cls).lifetime now then
        { h with list := { d with state := .held } :: rest }.removeFirst (fun x => x.serial == d.serial) .expired
      else { h with list := { d with state := .held } :: rest } := by
  have found : h.list.find? Descriptor.isDelivering = some d := by
    rw [list]
    exact List.find?_cons_of_pos (beq_iff_eq.2 delivering)
  rw [HoldStore.cutWithReturn, found, ← HoldStore.returnHeld_cons list held]

end

/-- A descriptor has reached its lifetime. -/
theorem Descriptor.outlived_iff (d : Descriptor) (lifetime : Nat) (now : Word32) :
    d.outlived lifetime now = true ↔ lifetime ≠ 0 ∧ lifetime * 1000 ≤ (now - d.arrival).toNat := by
  rw [Descriptor.outlived, Bool.and_eq_true, bne_iff_ne, decide_eq_true_iff]
  rfl

/-- Settles O55: the port's work at the loss, `State.sleepAtLoss` by the station's state, and the store at the cut. -/
theorem stationLinkEvents : Obligations.StationLinkEvents := by
  refine ⟨fun s arriving high up => ?_, fun h now => ⟨HoldStore.cutWithReturn_of_held now,
    fun d rest list delivering others => ⟨fun young => ?_, fun mortal old => ?_⟩⟩,
    fun s high down => exec_stationLinkRegain_down high down,
    fun s arriving => ⟨fun down => State.event_when_notDue (b := fun s => s.station.linkUp) down,
      fun up => State.event_when_notDue (b := fun s => !s.station.linkUp) (congrArg Bool.not up)⟩⟩
  · intro receiving queued lost returned fallback out
    have lose : (s.abandon .station arriving).loseStation = returned := s.loseStation_abandon arriving
    have sleep : out = .next returned.sleepAtLoss.settle := by
      rw [← lose]
      exact exec_stationLinkLoss_up arriving high up
    refine ⟨fun awake => ?_, fun releasing => ?_, fun dozing => ⟨fun flag => ?_, fun flag => ?_⟩, fun sleeping => ?_⟩
    · rw [sleep, State.sleepAtLoss_awake (s := returned) awake]
      rfl
    · rw [sleep, State.sleepAtLoss_releasing (s := returned) releasing]
      rfl
    · rw [sleep, (State.sleepAtLoss_dozing (s := returned) dozing).trans (if_neg (Bool.eq_false_iff.1 flag))]
    · rw [sleep, (State.sleepAtLoss_dozing (s := returned) dozing).trans (if_pos flag)]
      rfl
    · rw [sleep, State.sleepAtLoss_sleeping (s := returned) sleeping]
  · have lives : ¬ d.outlived (h.configs.get d.cls).lifetime now = true := fun outlived => by
      obtain ⟨mortal, old⟩ := (d.outlived_iff ..).1 outlived
      rcases young with immortal | young
      · exact mortal immortal
      · exact absurd young (Nat.not_lt.2 old)
    rw [HoldStore.cutWithReturn_cons now list delivering fun x hx => (others x hx).1, if_neg lives]
  · have outlived := (d.outlived_iff ..).2 ⟨mortal, old⟩
    rw [HoldStore.cutWithReturn_cons now list delivering fun x hx => (others x hx).1, if_pos outlived]
    have back : ({ h with list := { d with state := .held } :: rest } : HoldStore).list =
        [] ++ { d with state := .held } :: rest := rfl
    exact HoldStore.removeFirst_eq (sel := fun x => x.serial == d.serial) .expired back (beq_self_eq_true d.serial)
      (by simp)

end Sys2Proof.Machine
end
